-- ==== Sys2Proof/Word.lean ====
section
/-! DEFINITION. The word types of the machine. -/
namespace Sys2Proof

/-- A byte. -/
abbrev Byte := BitVec 8
/-- A register or scalar of 64 bits. -/
abbrev W64 := BitVec 64
/-- A word of 32 bits. -/
abbrev W32 := BitVec 32
/-- A byte string, in ascending address order (R6). -/
abbrev Bytes := List Byte

/-- A tile index, y × 48 + x (R12). -/
abbrev TileIx := Fin 1152
/-- A thread of a tile's control core; 0 is the pace thread (R77). -/
abbrev ThreadIx := Fin 16
/-- A ring of a pad (R40). -/
abbrev RingIx := Fin 32
/-- A gauge of a tile (R85). -/
abbrev GaugeIx := Fin 16
/-- A region number: W0 to W11 are 0 to 11, E0 to E11 are 12 to 23 (R14). -/
abbrev RegionIx := Fin 24
/-- An Afrel port, and the link hub of the same number (R17). -/
abbrev PortIx := Fin 16
/-- A hub: link hubs 0 to 15, host hub 16 (Table 4-12). -/
abbrev HubIx := Fin 17
/-- A polder, and the synchronous domain of the same number (R216). -/
abbrev PolderIx := Fin 8
/-- A gun channel (R159). -/
abbrev ChanIx := Fin 64
/-- A mailbox (R356). -/
abbrev MboxIx := Fin 16
/-- A path to a peer (R258). -/
abbrev PathIx := Fin 32
/-- A traffic class C0 to C7 (R239). -/
abbrev ClassIx := Fin 8
/-- An entry of a hub's target or source table (R265). -/
abbrev EntryIx := Fin 64
/-- A baton receive context of a hub (R275). -/
abbrev CtxIx := Fin 16
/-- An epoch slot of a polder (R282). -/
abbrev SlotIx := Fin 4
/-- A heat sketch (R292). -/
abbrev SketchIx := Fin 64
/-- A supply rail (Table 18-1). -/
abbrev RailIx := Fin 7
/-- A rail with adaptive voltage scaling: VSRAM, VCORE_W, VCORE_E (R224). -/
abbrev AvsIx := Fin 3
/-- A half of the die: 0 West, 1 East (R13). -/
abbrev HalfIx := Fin 2

end Sys2Proof
end

