-- ==== Sys2Proof/Syntax.lean ====
section
/-! DEFINITION. The commands of the block, one constructor per row of the table of operations and events, and the types
of their operands. -/
namespace Sys2Proof

/-- The channels of the XFE (R210): T, A, C, four send and four take channels (the rule counts ten and lists eleven; log 13). -/
inductive XChan where
  | tower | acc | copy | sN | sE | sS | sW | kN | kE | kS | kW
  deriving DecidableEq, Repr

/-- The four directions of the neighbour links (R206). -/
inductive Dir where
  | n | e | s | w
  deriving DecidableEq, Repr

/-- The three sequence spaces of a port (R245). -/
inductive Space where
  | main | c0 | c1
  deriving DecidableEq, Repr

/-- Who writes a register or a line: the host (requester ID), a thread of the tile, the management core, JTAG, I3C. -/
inductive Writer where
  | host (req : BitVec 16)
  | thread (t : TileIx) (th : ThreadIx)
  | mgmt
  | jtag
  | i3c
  deriving DecidableEq, Repr

/-- A remote gauge add on the service plane by a unit (tile index or unit ID) (R92, Table 4-12, KIND 0x1). -/
structure GaugeAdd where
  src : Nat
  tenant : BitVec 16
  dest : TileIx
  gauge : GaugeIx
  amount : BitVec 32
  e : Bool
  deriving DecidableEq, Repr

/-- A ready report to the gun controller (R93, R161). -/
structure ReadyRep where
  ch : ChanIx
  tile : TileIx
  offer : Option (BitVec 16)
  err : Bool
  deriving DecidableEq, Repr

/-- A fire message on the spine (R162, R164). -/
structure FireMsg where
  ch : ChanIx
  n : Nat
  verdict : BitVec 16
  deriving DecidableEq, Repr

/-- An abort request or an untimed message to the gun controller: the tile, and its current segment's channel and checkpoint
slot (R168, R173). -/
structure AbortReq where
  ch : ChanIx
  tile : TileIx
  slot : Nat
  deriving DecidableEq, Repr

/-- A fault report, Table 17-5: reporter, class, secondary and summary flags, suspects, weight, wall time, the 13 detail bytes. -/
structure Report where
  rep : Nat
  cls : Nat
  sec : Bool
  summary : Bool
  cul0 : Nat
  cul1 : Nat
  weight : Nat
  wt : Nat
  detail : Bytes
  deriving DecidableEq, Repr

/-- A stretch wave: origin region, stretched fc, factor 2 or 1.5 (R218). -/
structure Wave where
  origin : RegionIx
  fc : Nat
  two : Bool
  deriving DecidableEq, Repr

/-- What training found (R254, R256): the peer's ID and fused device ID, the lanes its WIDTH asks for, the lanes that train here,
the first lane of the leader's group (R235, R255). -/
structure TrainInfo where
  peer : BitVec 16
  dev : W64
  peerLanes : Nat
  trained : BitVec 8
  lead : Nat
  deriving DecidableEq, Repr

/-- A host access (R350, R353): requester, posted or not, offset in its BAR (BAR2, or BAR0 for a mailbox). -/
structure HostAccess where
  req : BitVec 16
  posted : Bool
  off : Nat
  deriving DecidableEq, Repr

/-- What a read-out of a frozen device names (R420, R422): pad bytes, an accumulator row, a tile register by its window offset, tower
bytes, bytes of the management SRAM. -/
inductive ReadTarget where
  | pad (t : TileIx) (addr len : Nat)
  | acc (t : TileIx) (row : Nat)
  | reg (t : TileIx) (off : Nat)
  | tower (r : RegionIx) (addr len : Nat)
  | sram (addr len : Nat)
  deriving DecidableEq, Repr

/-- What BIST found (R390): tiles that failed, tower layers (region, physical layer), regions whose PLL did not lock. -/
structure BistResult where
  tiles : List TileIx
  layers : List (RegionIx × Fin 4)
  plls : List RegionIx
  deriving DecidableEq, Repr

/-- A key held in a service-plane router (R397): the unit whose router it is, CLASS, CUL0, CUL1. -/
structure RouterKey where
  router : Nat
  cls : Nat
  cul0 : Nat
  cul1 : Nat
  deriving DecidableEq, Repr

/-- The inputs of a pass of the capping loop (R399): per region the hottest diode in °C averaged over 1 ms, per domain the energy per
tile over 10 ms, the package power in W averaged over 10 ms. -/
structure PowerInputs where
  tj : List (RegionIx × Nat)
  energy : List (PolderIx × Nat)
  pk : Nat
  deriving DecidableEq, Repr

/-- Who orders a freeze or a thaw (R417, R423): FRZ_CTL from the management core, JTAG, I3C. -/
inductive FrzSrc where
  | ctl | jtag | i3c
  deriving DecidableEq, Repr


/-- The commands of the block: one constructor per row of the table of operations and events. -/
inductive Instr where
  /-- COLD_RESET (R10). Loss of VAON or deassertion of PWR_OK_AON resets every register to its reset value and wipes all memories. -/
  | coldReset (vaonLost : Bool)
  /-- WARM_RESET (R10). Assertion of RST_N with VAON held resets registers except RWS fields and wipes all memories. -/
  | warmReset
  /-- PWR_OK_AON_RISE (R389). The rise of PWR_OK_AON starts bring-up at stage ROM. -/
  | pwrOkAonRise
  /-- RAIL_ORDER_VIOLATION (R408). A rail comes into tolerance before an earlier rail; later domains stay isolated, ORDER and RAIL are recorded and ALERT_N is asserted. -/
  | railOrderViolation (rail : RailIx)
  /-- RAIL_LOSS (R408). A rail other than VAON leaves tolerance while running; the device warm-resets and sets UVRST with the rail. -/
  | railLoss (rail : RailIx)
  /-- REFCLK_LOCK_LOSS (R413). The die reference PLL loses lock; the device warm-resets and sets CLKRST. -/
  | refclkLockLoss
  /-- XTAL_STOP (R413). The 32.768 kHz crystal stops; calendar and scrubber stop and ALERT_N is asserted. -/
  | xtalStop
  /-- THERMAL_TRIP (R415). A diode reaches 125 °C; hardware asserts and latches THERMTRIP_N, stops all clocks, isolates rails and sets TTRIP. -/
  | thermalTrip
  /-- REGISTER_WRITE (R7). A write to a register field without behaviour of its own sets RW, W1C, STG or RSVD fields under the access codes. -/
  | registerWrite (src : Writer) (off : Nat) (width : Nat) (v : W64)
  /-- PAD_PHASE_WRITE (R33). The management core writes a tile's PAD_PHASE; host writes are ignored. -/
  | padPhaseWrite (src : Writer) (t : TileIx) (v : W64)
  /-- SERVICE_PORT_ACCESS (R33). A management-core access through the service port is performed on service banks only in START, TEST or RECOVERY, else refused with SVC_REJ. -/
  | servicePortAccess (t : TileIx) (addr : Nat) (width : Nat) (wr : Option W64)
  /-- RING_APPEND (R35). A ring append packet from the management core writes one entry at a ring's tail, or is dropped as overrun or refused. -/
  | ringAppend (t : TileIx) (payload : Bytes)
  /-- THR_BND_WRITE (R32). A write to THR_BND[t] is performed only while thread t is halted, else ignored with CFG_REJ. -/
  | thrBndWrite (src : Writer) (t : TileIx) (th : ThreadIx) (v : W64)
  /-- RING_CFG_WRITE (R42). A write to RING_CFG is accepted only with EN 0; setting EN checks geometry and zeroes the pointers. -/
  | ringCfgWrite (src : Writer) (t : TileIx) (n : RingIx) (v : W64)
  /-- RING_HREL (R51). A host write of a count to RING_HREL advances HEAD by that count or sets UND. -/
  | ringHrel (src : Writer) (t : TileIx) (n : RingIx) (v : W64)
  /-- CODE_BANK_WRITE (R52). A write to CODE_A or CODE_B sets BASE and SIZE, or is ignored with CFG_REJ if out of range or the bank is active while threads run. -/
  | codeBankWrite (src : Writer) (t : TileIx) (bankB : Bool) (v : W64)
  /-- CODE_CTL_WRITE (R55). A write to CODE_CTL.ACTIVE is performed only while all threads are halted. -/
  | codeCtlWrite (src : Writer) (t : TileIx) (v : W64)
  /-- TWR_CFG_WRITE (R73). A write clearing a PRES bit maps a tower layer out, only while the region has no polder and PRES stays non-zero. -/
  | twrCfgWrite (src : Writer) (r : RegionIx) (v : W64)
  /-- TWR_INJ_WRITE (R75). A write to TWR_INJ arms or disarms one error injection under the TEST-phase conditions. -/
  | twrInjWrite (src : Writer) (r : RegionIx) (v : W64)
  /-- SCRUB_LINE (R69). Every 28 always-on ticks the scrubber reads and decodes the next line of the present layers. -/
  | scrubLine (r : RegionIx)
  /-- SCRUB_WRITEBACK (R70). The scrubber writes a corrected line back in the next reserved slot unless a newer write landed. -/
  | scrubWriteback (r : RegionIx)
  /-- FIX_QUEUE_WRITEBACK (R70). The fix queue rereads a queued line and rewrites it in a reserved slot unless a newer write landed. -/
  | fixQueueWriteback (r : RegionIx)
  /-- ADD (R99). ALU ADD writes the sum of two registers. -/
  | aluAdd (t : TileIx) (th : ThreadIx) (w : BitVec 26)
  /-- SUB (R99). ALU SUB writes the difference of two registers. -/
  | aluSub (t : TileIx) (th : ThreadIx) (w : BitVec 26)
  /-- AND (R99). ALU AND writes the bitwise and of two registers. -/
  | aluAnd (t : TileIx) (th : ThreadIx) (w : BitVec 26)
  /-- OR (R99). ALU OR writes the bitwise or of two registers. -/
  | aluOr (t : TileIx) (th : ThreadIx) (w : BitVec 26)
  /-- XOR (R99). ALU XOR writes the bitwise exclusive or of two registers. -/
  | aluXor (t : TileIx) (th : ThreadIx) (w : BitVec 26)
  /-- SLL (R99). ALU SLL shifts a register left by a register amount. -/
  | aluSll (t : TileIx) (th : ThreadIx) (w : BitVec 26)
  /-- SRL (R99). ALU SRL shifts a register right logically by a register amount. -/
  | aluSrl (t : TileIx) (th : ThreadIx) (w : BitVec 26)
  /-- SRA (R99). ALU SRA shifts a register right arithmetically by a register amount. -/
  | aluSra (t : TileIx) (th : ThreadIx) (w : BitVec 26)
  /-- MUL (R99). ALU MUL writes the low 64 bits of a product with result latency 2. -/
  | aluMul (t : TileIx) (th : ThreadIx) (w : BitVec 26)
  /-- MULHU (R99). ALU MULHU writes the high 64 bits of an unsigned product. -/
  | aluMulhu (t : TileIx) (th : ThreadIx) (w : BitVec 26)
  /-- MIN (R99). ALU MIN writes the signed minimum. -/
  | aluMin (t : TileIx) (th : ThreadIx) (w : BitVec 26)
  /-- MAX (R99). ALU MAX writes the signed maximum. -/
  | aluMax (t : TileIx) (th : ThreadIx) (w : BitVec 26)
  /-- MINU (R99). ALU MINU writes the unsigned minimum. -/
  | aluMinu (t : TileIx) (th : ThreadIx) (w : BitVec 26)
  /-- MAXU (R99). ALU MAXU writes the unsigned maximum. -/
  | aluMaxu (t : TileIx) (th : ThreadIx) (w : BitVec 26)
  /-- SEL (R99). ALU SEL selects one of two registers by a comparator. -/
  | aluSel (t : TileIx) (th : ThreadIx) (w : BitVec 26)
  /-- AGL (R99). ALU AGL adds a stride times a loop index to a base. -/
  | aluAgl (t : TileIx) (th : ThreadIx) (w : BitVec 26)
  /-- ADDI (R99). ADDI adds a sign-extended immediate. -/
  | addi (t : TileIx) (th : ThreadIx) (w : BitVec 26)
  /-- ANDI (R99). ANDI ands a zero-extended immediate. -/
  | andi (t : TileIx) (th : ThreadIx) (w : BitVec 26)
  /-- ORI (R99). ORI ors a zero-extended immediate. -/
  | ori (t : TileIx) (th : ThreadIx) (w : BitVec 26)
  /-- XORI (R99). XORI exclusive-ors a zero-extended immediate. -/
  | xori (t : TileIx) (th : ThreadIx) (w : BitVec 26)
  /-- SLLI (R99). SLLI shifts left by an immediate. -/
  | slli (t : TileIx) (th : ThreadIx) (w : BitVec 26)
  /-- SRLI (R99). SRLI shifts right logically by an immediate. -/
  | srli (t : TileIx) (th : ThreadIx) (w : BitVec 26)
  /-- SRAI (R99). SRAI shifts right arithmetically by an immediate. -/
  | srai (t : TileIx) (th : ThreadIx) (w : BitVec 26)
  /-- INSI (R99). INSI inserts a 16-bit immediate into one quarter of a register. -/
  | insi (t : TileIx) (th : ThreadIx) (w : BitVec 26)
  /-- CMP (R99). CMP sets a comparator from a condition on two registers. -/
  | cmp (t : TileIx) (th : ThreadIx) (w : BitVec 26)
  /-- CMPI (R99). CMPI sets a comparator from a condition on a register and an immediate. -/
  | cmpi (t : TileIx) (th : ThreadIx) (w : BitVec 26)
  /-- BR (R84). BR branches on a comparator, possibly deactivating loop levels. -/
  | br (t : TileIx) (th : ThreadIx) (w : BitVec 26)
  /-- JAL (R99). JAL jumps PC-relative and links. -/
  | jal (t : TileIx) (th : ThreadIx) (w : BitVec 26)
  /-- JR (R99). JR jumps to a register target and links. -/
  | jr (t : TileIx) (th : ThreadIx) (w : BitVec 26)
  /-- LD (R100). LD loads 8 pad bytes into a register after the bounds and alignment checks. -/
  | ld (t : TileIx) (th : ThreadIx) (w : BitVec 26)
  /-- LW (R100). LW loads 4 pad bytes zero-extended. -/
  | lw (t : TileIx) (th : ThreadIx) (w : BitVec 26)
  /-- LB (R100). LB loads one pad byte zero-extended. -/
  | lb (t : TileIx) (th : ThreadIx) (w : BitVec 26)
  /-- ST (R100). ST stores 8 bytes into the pad. -/
  | st (t : TileIx) (th : ThreadIx) (w : BitVec 26)
  /-- SW (R100). SW stores 4 bytes into the pad. -/
  | sw (t : TileIx) (th : ThreadIx) (w : BitVec 26)
  /-- SB (R100). SB stores one byte into the pad. -/
  | sb (t : TileIx) (th : ThreadIx) (w : BitVec 26)
  /-- RPOP (R43). RPOP advances a ring's HEAD by one entry after checks. -/
  | rpop (t : TileIx) (th : ThreadIx) (w : BitVec 26)
  /-- RPUSH (R43). RPUSH advances a ring's TAIL by one entry after checks. -/
  | rpush (t : TileIx) (th : ThreadIx) (w : BitVec 26)
  /-- RPTR (R99). RPTR reads a ring's head address, tail address, occupancy or fill cursor. -/
  | rptr (t : TileIx) (th : ThreadIx) (w : BitVec 26)
  /-- PUSH (R90). PUSH appends a 128-bit command to the MXE, VXE or XFE queue, or stalls on a full queue. -/
  | push (t : TileIx) (th : ThreadIx) (w : BitVec 26)
  /-- STALL_RESUME (R91). A stalled thread completes its push or send in the first fc with queue room. -/
  | stallResume (t : TileIx) (th : ThreadIx)
  /-- SEND (R92). SEND places a checked remote descriptor in the service send queue. -/
  | send (t : TileIx) (th : ThreadIx) (w : BitVec 26)
  /-- SEND_DRAIN (R92). The send queue drains its next descriptor onto the service plane. -/
  | sendDrain (t : TileIx)
  /-- REMOTE_GAUGE_ADD (R92). An arriving remote gauge add is applied at the destination gauge, or dropped at a dike. -/
  | remoteGaugeAdd (g : GaugeAdd)
  /-- GADD (R86). GADD adds a value to a gauge. -/
  | gadd (t : TileIx) (th : ThreadIx) (w : BitVec 26)
  /-- GSET (R86). GSET sets a gauge value and clears ERR. -/
  | gset (t : TileIx) (th : ThreadIx) (w : BitVec 26)
  /-- GWAIT (R88). GWAIT continues if the gauge condition holds, else puts the thread in WAIT. -/
  | gwait (t : TileIx) (th : ThreadIx) (w : BitVec 26)
  /-- GWAIT_WAKE (R88). A waiting thread resumes three fc after its gauge first shows a satisfying state. -/
  | gwaitWake (t : TileIx) (th : ThreadIx)
  /-- GAUGE_TIMEOUT (R89). A wait exceeding GWDOG.LIMIT raises GAUGE_TIMEOUT with the fault effects. -/
  | gaugeTimeout (t : TileIx) (th : ThreadIx)
  /-- GRD (R99). GRD reads a gauge's value and error flag. -/
  | grd (t : TileIx) (th : ThreadIx) (w : BitVec 26)
  /-- GAUGE_WRITE (R86). A CSR write of GAUGE[n] acts as a set applied before other changes of that fc. -/
  | gaugeWrite (src : Writer) (t : TileIx) (n : GaugeIx) (v : W64)
  /-- GARM (R93). GARM writes the arm record of a gun channel. -/
  | garm (t : TileIx) (th : ThreadIx) (w : BitVec 26)
  /-- ARM_REPORT (R93). When an arm record's gauge condition holds, the tile sends one ready report and spends the record. -/
  | armReport (t : TileIx) (ch : ChanIx)
  /-- GAWAIT (R164). GAWAIT puts a thread in GUN for a channel's fire instant, or raises GUN_MISSED. -/
  | gawait (t : TileIx) (th : ThreadIx) (w : BitVec 26)
  /-- GUN_RESUME (R94). A thread in GUN resumes at the fire instant with the verdict in rd. -/
  | gunResume (t : TileIx) (th : ThreadIx)
  /-- TSPAWN (R102). TSPAWN starts a halted gather thread at a register address. -/
  | tspawn (t : TileIx) (th : ThreadIx) (w : BitVec 26)
  /-- THALT (R102). THALT halts the issuing thread and disarms any flip. -/
  | thalt (t : TileIx) (th : ThreadIx) (w : BitVec 26)
  /-- PAUSE (R102). PAUSE holds the thread for N fc. -/
  | pause (t : TileIx) (th : ThreadIx) (w : BitVec 26)
  /-- PAUSE_END (R102). A paused thread issues its next instruction when the count ends. -/
  | pauseEnd (t : TileIx) (th : ThreadIx)
  /-- FLIP (R95). FLIP arms a code-bank flip and fetches the target line. -/
  | flip (t : TileIx) (th : ThreadIx) (w : BitVec 26)
  /-- FLIP_TAKE_EFFECT (R96). An armed flip toggles the active bank, clears loops and fetch buffers and restarts gather threads. -/
  | flipTakeEffect (t : TileIx)
  /-- CSRR (R103). CSRR reads a register of the tile's own CSR window. -/
  | csrr (t : TileIx) (th : ThreadIx) (w : BitVec 26)
  /-- CSRW (R103). CSRW writes a register of the tile's own CSR window under its access rules. -/
  | csrw (t : TileIx) (th : ThreadIx) (w : BitVec 26)
  /-- SETLC (R102). SETLC writes a loop count register. -/
  | setlc (t : TileIx) (th : ThreadIx) (w : BitVec 26)
  /-- LOOP (R82). LOOP latches a count and activates a hardware loop level, or skips the body. -/
  | loop (t : TileIx) (th : ThreadIx) (w : BitVec 26)
  /-- INSTRUCTION_FETCH (R81). A requested code line becomes usable in the thread's fetch buffer. -/
  | instructionFetch (t : TileIx) (th : ThreadIx) (line : Nat)
  /-- THR_HALT (R79). THR_CTL.HALT puts a thread into HALTED from any state. -/
  | thrHalt (src : Writer) (t : TileIx) (th : ThreadIx)
  /-- THR_START (R79). THR_CTL.START starts a halted thread at ENTRY. -/
  | thrStart (src : Writer) (t : TileIx) (th : ThreadIx)
  /-- LOADW (R124). LOADW begins and reads a weight block into a plane, through the expander if EXP is 1. -/
  | loadw (t : TileIx)
  /-- STREAM (R125). STREAM begins passing R activation rows through a weight plane. -/
  | stream (t : TileIx)
  /-- DRAIN (R130). DRAIN begins emitting accumulator rows to the finished-tile ring. -/
  | drain (t : TileIx)
  /-- MXE_ROW_ISSUE (R121). A STREAM or DRAIN row issues and reads its activation or accumulator data. -/
  | mxeRowIssue (t : TileIx)
  /-- MXE_ROW_WRITE (R121). A row writes its accumulator row and emits its output tile to the finished-tile ring. -/
  | mxeRowWrite (t : TileIx)
  /-- MXE_COMPLETE (R119). An MXE command completes and adds to its gauge, or a LOADW raises SPARSE_SIZE_MISMATCH. -/
  | mxeComplete (t : TileIx) (load : Bool)
  /-- VADD (R146). VXE VADD begins, adding lanes. -/
  | vadd (t : TileIx)
  /-- VSUB (R146). VXE VSUB begins, subtracting lanes. -/
  | vsub (t : TileIx)
  /-- VMUL (R146). VXE VMUL begins, multiplying lanes. -/
  | vmul (t : TileIx)
  /-- VFMA (R146). VXE VFMA begins, fused multiply-add with one rounding. -/
  | vfma (t : TileIx)
  /-- VMIN (R140). VXE VMIN begins, lane minimum. -/
  | vmin (t : TileIx)
  /-- VMAX (R140). VXE VMAX begins, lane maximum. -/
  | vmax (t : TileIx)
  /-- VABS (R146). VXE VABS begins, clearing signs. -/
  | vabs (t : TileIx)
  /-- VNEG (R146). VXE VNEG begins, inverting signs. -/
  | vneg (t : TileIx)
  /-- VMOV (R146). VXE VMOV begins, copying lanes. -/
  | vmov (t : TileIx)
  /-- VSPLAT (R142). VXE VSPLAT begins, writing an immediate to every lane. -/
  | vsplat (t : TileIx)
  /-- VCMP (R140). VXE VCMP begins, writing a mask from a lane comparison. -/
  | vcmp (t : TileIx)
  /-- VIADD (R146). VXE VIADD begins, integer lane addition. -/
  | viadd (t : TileIx)
  /-- VAND (R146). VXE VAND begins, bitwise and of lanes. -/
  | vand (t : TileIx)
  /-- VOR (R146). VXE VOR begins, bitwise or of lanes. -/
  | vor (t : TileIx)
  /-- VXOR (R146). VXE VXOR begins, bitwise exclusive or of lanes. -/
  | vxor (t : TileIx)
  /-- VSHL (R146). VXE VSHL begins, shifting lanes left. -/
  | vshl (t : TileIx)
  /-- VSHR (R146). VXE VSHR begins, shifting lanes right logically. -/
  | vshr (t : TileIx)
  /-- VIOTA (R146). VXE VIOTA begins, writing lane numbers. -/
  | viota (t : TileIx)
  /-- VITOF (R146). VXE VITOF begins, converting integers to FP32. -/
  | vitof (t : TileIx)
  /-- VFTOI (R146). VXE VFTOI begins, converting FP32 to saturated integers. -/
  | vftoi (t : TileIx)
  /-- PADD (R146). VXE PADD begins, packed BF16 addition. -/
  | padd (t : TileIx)
  /-- PMUL (R146). VXE PMUL begins, packed BF16 multiplication. -/
  | pmul (t : TileIx)
  /-- PFMA (R146). VXE PFMA begins, packed BF16 fused multiply-add. -/
  | pfma (t : TileIx)
  /-- PPACK (R146). VXE PPACK begins, packing two FP32 lanes into BF16 halves. -/
  | ppack (t : TileIx)
  /-- PUNPK (R146). VXE PUNPK begins, widening one BF16 half to FP32. -/
  | punpk (t : TileIx)
  /-- VTR (R141). VXE VTR begins, a transcendental function of table set 1. -/
  | vtr (t : TileIx)
  /-- VRED (R150). VXE VRED begins, a fixed-tree group reduction. -/
  | vred (t : TileIx)
  /-- VTOPK (R151). VXE VTOPK begins, top-k values and indices within groups. -/
  | vtopk (t : TileIx)
  /-- VSLOT (R152). VXE VSLOT begins, assigning expert slots in lane and step order. -/
  | vslot (t : TileIx)
  /-- VSLOTCLR (R152). VXE VSLOTCLR clears the slot counters. -/
  | vslotclr (t : TileIx)
  /-- VSLOTRD (R152). VXE VSLOTRD reads slot counters into lanes. -/
  | vslotrd (t : TileIx)
  /-- VRUPD (R153). VXE VRUPD begins, updating embedding rows by SGD or Adagrad. -/
  | vrupd (t : TileIx)
  /-- VDIG_OPEN (R155). VDIG open resets and opens the tile digest. -/
  | vdigOpen (t : TileIx)
  /-- VDIG_CLOSE (R155). VDIG close finishes the digest, writes its line and latches the registers. -/
  | vdigClose (t : TileIx)
  /-- VXE_STEP (R146). A VXE step issues, reads its operands, pops the finished-tile ring and later writes its destination. -/
  | vxeStep (t : TileIx)
  /-- VXE_COMPLETE (R146). A VXE command completes and adds to its gauge. -/
  | vxeComplete (t : TileIx)
  /-- TREAD (R211). XFE TREAD begins moving tower blocks into the pad in usable slots. -/
  | tread (t : TileIx)
  /-- TWRITE (R211). XFE TWRITE begins moving pad lines into tower blocks. -/
  | twrite (t : TileIx)
  /-- HSEND (R212). XFE HSEND begins sending 128 B units along a compiled route. -/
  | hsend (t : TileIx)
  /-- HTAKE (R212). XFE HTAKE begins taking units from a hop slot into the pad. -/
  | htake (t : TileIx)
  /-- AREAD (R211). XFE AREAD begins moving accumulator rows to the pad. -/
  | aread (t : TileIx)
  /-- AWRITE (R211). XFE AWRITE begins moving pad lines to accumulator rows. -/
  | awrite (t : TileIx)
  /-- ICOPY (R214). XFE ICOPY begins copying rows by index entries. -/
  | icopy (t : TileIx)
  /-- XFE_COMPLETE (R209). An XFE command completes and adds to its gauge. -/
  | xfeComplete (t : TileIx) (c : XChan)
  /-- HOP_ARRIVAL (R175). A scheduled unit arrives at a tile's hop slot or passes through it; `late`: a clock fault makes its sender lag
beyond the tolerance (R220). -/
  | hopArrival (t : TileIx) (dir : Dir) (late : Bool)
  /-- READY_REPORT (R161). The gun controller takes a ready report, counts it, and may decide a fire or enter ERROR. -/
  | readyReport (rep : ReadyRep)
  /-- FIRE_MESSAGE (R164). A fire message reaching a tile writes its fire record, or raises GUN_LATE. -/
  | fireMessage (t : TileIx) (f : FireMsg)
  /-- FIRE_INSTANT (R163). At fire instant N the tile begins a segment, takes its checkpoint and applies gun-timed settings. -/
  | fireInstant (ch : ChanIx)
  /-- GUN_TIMEOUT (R166). GUN_LIM expiry sets TMO, records MISS and sends one GUN_TIMEOUT report. -/
  | gunTimeout (ch : ChanIx)
  /-- UNTIMED_MESSAGE (R173). The controller takes an untimed message, sets UNT, and treats it as an abort request if UTA is 1. -/
  | untimedMessage (q : AbortReq)
  /-- ABORT_REQUEST (R168). The controller takes an abort request, sets or joins abort instant A and sends abort messages. -/
  | abortRequest (q : AbortReq)
  /-- ABORT_MESSAGE (R168). An abort message reaches a member tile and fixes which faults are secondary. -/
  | abortMessage (t : TileIx) (ch : ChanIx)
  /-- ABORT_INSTANT (R169). At A tiles empty engines and hop slots, roll back rings, restore pace threads and the channel becomes ABORTED. -/
  | abortInstant (ch : ChanIx)
  /-- GUN_CHAN_WRITE (R180). A write to GUN_CHAN is accepted only with EN 0; setting EN checks R159 and enters COLLECT. -/
  | gunChanWrite (src : Writer) (ch : ChanIx) (v : W64)
  /-- GUN_RECOUNT (R161). GUN_CTL.RECOUNT in ERROR zeroes the count and returns the channel to COLLECT. -/
  | gunRecount (ch : ChanIx)
  /-- GUN_GO (R171). GUN_CTL.GO re-fires an ABORTED re-runnable segment or sends the channel to FAILED. -/
  | gunGo (ch : ChanIx)
  /-- GUN_ABORT (R432). GUN_CTL.ABORT acts as an abort request for the latest segment of the channel. -/
  | gunAbort (ch : ChanIx)
  /-- RESTORE (R172). SEG_CTL.RESTORE restores a halted pace thread from the current checkpoint into GUN. -/
  | restore (src : Writer) (t : TileIx)
  /-- GUN_VCFG_WRITE (R203). A write to VDEF, MODE or LEADT is performed only while the channel is disabled. -/
  | gunVcfgWrite (src : Writer) (ch : ChanIx) (v : W64)
  /-- DROOP_STRETCH (R218). A droop detector trip stretches the region's next fc and starts a stretch wave. -/
  | droopStretch (r : RegionIx) (two : Bool)
  /-- STRETCH_WAVE (R219). A stretch wave reaching a region stretches its fc c + h once, deferring on conflict. -/
  | stretchWave (r : RegionIx) (w : Wave)
  /-- MONITOR_REQUEST (R223). A region monitor lowers its frequency request when margin is short. -/
  | monitorRequest (r : RegionIx) (m : Nat)
  /-- MONITOR_WITHDRAW (R223). After 1 ms of margin a monitor withdraws its lower request. -/
  | monitorWithdraw (r : RegionIx) (m : Nat)
  /-- FREQ_SWITCH (R222). At switch fc F every region of the domain changes to the new FAPP. -/
  | freqSwitch (d : PolderIx)
  /-- AVS_READBACK (R409). Every 100 µs the device reads back rail voltage and current, updating FCEIL and ERR. -/
  | avsReadback (a : AvsIx) (mv amps ceil : Nat) (error : Bool)
  /-- AVS_SET (R409). A write to AVS_SET issues a voltage set-point over AVSBus or is rejected out of range. -/
  | avsSet (src : Writer) (a : AvsIx) (v : W64)
  /-- PACE_PULSE (R228). Every 1 µs the die timebase pulses the timekeepers, which adjust their rate. -/
  | pacePulse
  /-- PPS_IN (R231). A rising edge of PPS_IN is timestamped and steers the timebase. -/
  | ppsIn
  /-- TB_STEP (R229). TB_CTL.STEP steps wt to TB_SET only if no polder runs and the step is forward. -/
  | tbStep (src : Writer)
  /-- TIMEBASE_EXCHANGE (R230). At 1 kHz the chip sends a C1 time request to its peer. -/
  | timebaseExchange
  /-- TIME_MESSAGE (R270). A C1 time message is answered or yields the offset and delay that steer the timebase. -/
  | timeMessage (p : PortIx) (rx : Nat)
  /-- FLIT_SLOT (R239). In each flit slot the sender chooses a CTRL, replayed, privileged, data or IDLE flit. -/
  | flitSlot (p : PortIx)
  /-- DATA_FLIT (R245). A DATA flit is checked, accepted, discarded as gap or duplicate, and handed to the hub. -/
  | dataFlit (p : PortIx) (raw : Bytes) (fec : Bool)
  /-- CTRL_FLIT (R246). A CTRL flit applies acknowledgements, credit returns and replay requests. -/
  | ctrlFlit (p : PortIx) (raw : Bytes)
  /-- CTRL_DOWN (R250). A CTRL flit with CMD 1 takes the port DOWN. -/
  | ctrlDown (p : PortIx)
  /-- CTRL_RETRAIN (R253). A CTRL flit with CMD 2 starts a planned retrain at the peer. -/
  | ctrlRetrain (p : PortIx)
  /-- CTRL_WIDTH (R256). A CTRL flit with CMD 3 requests a width change and retrain. -/
  | ctrlWidth (p : PortIx) (lanes : Nat)
  /-- IDLE_FLIT (R252). An IDLE flit on a HELD port returns it to its previous state. -/
  | idleFlit (p : PortIx)
  /-- HOLD_FLIT (R252). A HOLD flit puts the port in HELD and may launch a follow freeze. -/
  | holdFlit (p : PortIx) (frzno : BitVec 32) (follow : Bool)
  /-- ACK_TIMER (R246). 200 ns after the oldest unacknowledged flit the receiver sends an acknowledgement. -/
  | ackTimer (p : PortIx)
  /-- REPLAY_TIMEOUT (R247). A 4 µs replay timer expiry replays the space go-back-N. -/
  | replayTimeout (p : PortIx) (sp : Space)
  /-- ARQ_REPEAT (R248). While the main buffer is full a CTRL flit with ARQ is sent every 1 µs. -/
  | arqRepeat (p : PortIx)
  /-- WINDOW_END (R249). A measurement window ends and is evaluated for DEG and credit loss. -/
  | windowEnd (p : PortIx)
  /-- RETRAIN_ATTEMPT (R253). A retrain attempt starts with a fast retrain, led by the lower device ID. -/
  | retrainAttempt (p : PortIx) (both : Bool)
  /-- FAST_RETRAIN_FAIL (R253). A failed fast retrain falls back to full link training. -/
  | fastRetrainFail (p : PortIx)
  /-- TRAINING_COMPLETE (R254). Training ends with the parameter exchange and the port comes UP with fresh credits. -/
  | trainingComplete (p : PortIx) (x : TrainInfo)
  /-- ATTEMPT_TIMEOUT (R253). An attempt not UP within 600 ms fails and counts toward retirement. -/
  | attemptTimeout (p : PortIx)
  /-- DRAIN_COMPLETE (R253). When a draining port has everything acknowledged and completed, both ends retrain. -/
  | drainComplete (p : PortIx)
  /-- PORT_CTL_RETRAIN (R253). PORT_CTL.RETRAIN orders a planned retrain and puts the port in DRAIN. -/
  | portCtlRetrain (src : Writer) (p : PortIx)
  /-- PORT_CTL_DOWN (R250). PORT_CTL.DOWN forces the port DOWN. -/
  | portCtlDown (src : Writer) (p : PortIx)
  /-- GRACE_EXPIRY (R260). Path grace expiry sends the path to FAILED and completes held messages with GRACE_EXPIRED. -/
  | graceExpiry (n : PathIx)
  /-- SRING (R267). A hub request SRING is checked and queued to send ring data under compact-mode credit. -/
  | sring (h : HubIx)
  /-- SRING_SEND (R267). A queued SRING whose credit counter suffices deducts it and is sent. -/
  | sringSend (n : PathIx) (cls : ClassIx)
  /-- SSLUICE (R268). A hub request SSLUICE sends lines into a remote sluice. -/
  | ssluice (h : HubIx)
  /-- SSLOT (R196). A hub request SSLOT sends one slot block to a slot ring. -/
  | sslot (h : HubIx)
  /-- RGADD_REQUEST (R269). A hub request RGADD sends a remote gauge add to a peer tile. -/
  | rgaddRequest (h : HubIx)
  /-- GRANT_REQUEST (R267). A hub request GRANT grants lines to a landing entry's source. -/
  | grantRequest (h : HubIx)
  /-- TSET (R265). TSET sets a landing, sluice, slot or receive entry from a pad record after checks. -/
  | tset (h : HubIx)
  /-- TCLR (R265). TCLR disables an entry that the requesting polder set. -/
  | tclr (h : HubIx)
  /-- BOPEN (R278). BOPEN reads a baton header, checks it at the source and sends BHDR. -/
  | bopen (h : HubIx)
  /-- BDATA_REQUEST (R278). BDATA reads plaintext lines, encrypts them with tags and sends a BDATA message. -/
  | bdataRequest (h : HubIx)
  /-- BCLOSE (R278). BCLOSE sends BEND with the last tag, or BABORT, and frees the send context. -/
  | bclose (h : HubIx)
  /-- BFETCH (R281). BFETCH makes the host hub read a baton from the slow tier into a receive entry. -/
  | bfetch
  /-- RING_MESSAGE (R267). An arriving RING message is checked and written and advanced into its landing ring. -/
  | ringMessage (p : PortIx) (cls : ClassIx)
  /-- SLUICE_MESSAGE (R268). An arriving SLUICE message is written within the sluice or completes with SLUICE_VIOLATION. -/
  | sluiceMessage (p : PortIx) (cls : ClassIx)
  /-- SLOT_MESSAGE (R197). An arriving slot block is placed in its region, advancing TAIL and order records in position order. -/
  | slotMessage (p : PortIx) (cls : ClassIx)
  /-- ORDER_RING_RESUME (R197). A hub waiting on a full order ring writes the order record and releases the block when room appears. -/
  | orderRingResume (h : HubIx) (e : EntryIx)
  /-- RGADD_MESSAGE (R269). An arriving RGADD sends a remote gauge add to the named tile. -/
  | rgaddMessage (p : PortIx) (cls : ClassIx)
  /-- GRANT_MESSAGE (R267). An arriving GRANT adds lines to the source hub's credit counter. -/
  | grantMessage (p : PortIx) (cls : ClassIx)
  /-- CMPL (R263). A CMPL record completes a request, adding to gauge CG with E on error. -/
  | cmpl (p : PortIx) (cls : ClassIx)
  /-- BHDR (R275). A baton header is checked at the receive entry and a receive context is opened. -/
  | bhdr (p : PortIx) (cls : ClassIx)
  /-- BDATA_MESSAGE (R280). Arriving baton ciphertext is decrypted into staging and chunk tags are checked. -/
  | bdataMessage (p : PortIx) (cls : ClassIx)
  /-- CHUNK_DELIVER (R280). A verified chunk is delivered into DRING as whole entries when room exists. -/
  | chunkDeliver (h : HubIx) (c : CtxIx)
  /-- BEND (R276). BEND checks length and TAGDIG, verifies the baton and reports its index to the epoch slot. -/
  | bend (p : PortIx) (cls : ClassIx)
  /-- BABORT (R275). BABORT rejects the baton with cause ABORT and frees its context. -/
  | babort (p : PortIx) (cls : ClassIx)
  /-- BATON_CONTEXT_TIMEOUT (R279). A receive context idle for 10 ms is freed as though BABORT arrived. -/
  | batonContextTimeout (h : HubIx) (c : CtxIx)
  /-- SREAD (R290). A slow-tier SREAD is checked against the window and issued as UIO reads. -/
  | sread
  /-- SWRITE (R290). A slow-tier SWRITE is checked against the window and issued as UIO writes. -/
  | swrite
  /-- UIO_ISSUE (R355). A queued UIO request is issued when fewer than 512 are outstanding. -/
  | uioIssue
  /-- UIO_COMPLETION (R354). A UIO completion lands slow-tier data and completes the request when all parts are done. -/
  | uioCompletion (id : Nat) (ok : Bool) (data : Bytes)
  /-- UIO_TIMEOUT (R355). A UIO request without completion after 100 µs completes with E = 1. -/
  | uioTimeout (id : Nat)
  /-- EPOCH_OPEN (R283). EP_CTL OPEN moves an EMPTY slot to LOADING or READY after checks. -/
  | epochOpen (d : PolderIx) (sl : SlotIx)
  /-- EPOCH_SWITCH (R285). EP_CTL SWITCH makes a READY slot LIVE and the previous LIVE slot DRAINING. -/
  | epochSwitch (d : PolderIx) (sl : SlotIx) (arg : BitVec 32)
  /-- ADMISSION_SWITCH (R285). On the admission chip the switch takes effect when it arrives at the admission tile. -/
  | admissionSwitch (d : PolderIx)
  /-- EPOCH_ABANDON (R287). EP_CTL ABANDON returns a LOADING or READY slot to EMPTY and aborts its contexts. -/
  | epochAbandon (d : PolderIx) (sl : SlotIx)
  /-- EP_ADMIT (R284). A read of EP_ADMIT in the admission tile returns the next batch and LIVE epoch and advances NEXT_B. -/
  | epAdmit (t : TileIx) (th : ThreadIx) (w : BitVec 26)
  /-- EP_DONE (R286). A write to EP_DONE advances the watermark and may retire a DRAINING slot. -/
  | epDone (t : TileIx) (b : BitVec 32)
  /-- HEAT_IN (R292). A HEAT_IN record increments its sketch counters, or is dropped if no sketch is bound. -/
  | heatIn (t : TileIx) (v : W64)
  /-- HEAT_TBL_WRITE (R299). A write to HEAT_TBL is accepted only with EN 0; setting EN clears the sketch. -/
  | heatTblWrite (src : Writer) (n : SketchIx) (v : W64)
  /-- HEAT_TAKE (R293). HEAT_CTL.TAKE removes the candidate entry selected by HEAT_SEL. -/
  | heatTake (src : Writer) (v : W64)
  /-- HEAT_CLEAR (R292). HEAT_CTL.CLEAR clears a sketch and its candidate list. -/
  | heatClear (src : Writer) (v : W64)
  /-- HEAT_HALVE (R292). HEAT_CTL.HALVE shifts every counter of a sketch right by one. -/
  | heatHalve (src : Writer) (v : W64)
  /-- HEAT_QRY (R292). A write to HEAT_QRY computes a row's estimate into HEAT_EST. -/
  | heatQry (src : Writer) (v : W64)
  /-- UPDATE_POINT (R294). An UPDATE_POINT message increments RCPT_UPD and schedules a re-tiering pass. -/
  | updatePoint
  /-- RETIER_PASS (R401). Terern works through the polder's sketches, appending PROMOTE orders and halving on schedule. -/
  | retierPass (d : PolderIx)
  /-- ORDER_DONE (R298). An ORDER_DONE message reports an order outcome; for RELOAD it decides GO or a host event. -/
  | orderDone
  /-- SUSPECT (R397). A SUSPECT message enters the funnel and marks the tile for test at the next region reset. -/
  | suspect
  /-- RECEIPT (R324). A receipt request is checked and its record and extents are read and hashed. -/
  | receipt
  /-- RECEIPT_FORM (R325). The engine writes the receipt into the receipt ring when room exists and completes the request. -/
  | receiptForm
  /-- SEAL (R327). At each meter interval end the engine writes a seal over the interval's receipts. -/
  | seal (d : PolderIx)
  /-- RCPT_CFG_WRITE (R329). A write to RCPT_CFG is accepted only while the polder is not RUNNING, checking the ring on EN. -/
  | rcptCfgWrite (src : Writer) (d : PolderIx) (v : W64)
  /-- POLDER_START (R333). POLDER_CTL.START moves an ASSIGNED polder to RUNNING and restarts its receipt chain. -/
  | polderStart (d : PolderIx)
  /-- POLDER_KILL (R339). POLDER_CTL.KILL sets a quarantine instant for an ASSIGNED or RUNNING polder. -/
  | polderKill (d : PolderIx)
  /-- POLDER_FINISH (R339). POLDER_CTL.FINISH sets a quarantine instant for a RUNNING polder. -/
  | polderFinish (d : PolderIx)
  /-- QUARANTINE_INSTANT (R339). At Q the polder enters QUARANTINE, halts, disables channels and entries and stops metering. -/
  | quarantineInstant (d : PolderIx)
  /-- WIPE_START (R340). Once the hubs have read the last begun messages, the wipe starts in every region of the polder. -/
  | wipeStart (d : PolderIx)
  /-- WIPE_COMPLETE (R340). When every region finishes, Terern signs the certificate and the polder becomes FREE. -/
  | wipeComplete (d : PolderIx) (failed : BitVec 24)
  /-- COMMIT_GO (R338). COMMIT_CTL.GO checks the staged copies and makes the commit PENDING or REJECTED. -/
  | commitGo (v : W64)
  /-- COMMIT_ABORT (R338). COMMIT_CTL.ABORT rejects a PENDING commit with code 1. -/
  | commitAbort
  /-- COMMIT_APPLY (R338). At the commit instant the checks run again and every staged setting applies or the commit is rejected LATE. -/
  | commitApply
  /-- POWER_MONITOR_SAMPLE (R344). Every 1 µs region energy is integrated and charged to polders. -/
  | powerMonitorSample (uj : List (RegionIx × Nat)) (rest : Nat)
  /-- METER_STATEMENT (R346). At each window end Terern signs a meter statement for every non-FREE polder. -/
  | meterStatement
  /-- HOURLY_PERSIST (R403). Hourly Terern persists lifetime counters, meter sequences and calendar to flash. -/
  | hourlyPersist
  /-- BAR2_READ (R353). A host BAR2 read is checked line by line and returns pad or tower data or completes with error. -/
  | bar2Read (a : HostAccess) (len : Nat)
  /-- BAR2_WRITE (R353). A host BAR2 write is checked line by line and performed up to the first refused line. -/
  | bar2Write (a : HostAccess) (data : Bytes)
  /-- MAILBOX_WRITE (R356). A host write into a mailbox command ring fills entries, binds a FREE mailbox, or is refused. -/
  | mailboxWrite (a : HostAccess) (data : Bytes)
  /-- MB_EVREL (R356). A write to MB_EVREL releases event entries or sets UND. -/
  | mbEvrel (req : BitVec 16) (m : MboxIx) (n : BitVec 32)
  /-- OPEN (R359). Session command OPEN checks kind and version and answers a challenge. -/
  | sesOpen (m : MboxIx)
  /-- PROVE (R359). Session command PROVE verifies the signature and opens the session. -/
  | sesProve (m : MboxIx)
  /-- CLOSE (R359). Session command CLOSE closes the session and frees the mailbox. -/
  | sesClose (m : MboxIx)
  /-- SET_UTC (R232). Session command SET_UTC writes the calendar and persists it. -/
  | sesSetUtc (m : MboxIx)
  /-- STAGE (R433). Session command STAGE checks and writes up to 14 staged register pairs. -/
  | sesStage (m : MboxIx)
  /-- COMMIT (R338). Session command COMMIT runs a staged commit and answers when it is done or rejected. -/
  | sesCommit (m : MboxIx)
  /-- POLDER (R333). Session command POLDER starts, kills or finishes a polder the session may act on. -/
  | sesPolder (m : MboxIx)
  /-- PROGRAM (R375). Session command PROGRAM verifies a signed program digest and writes RCPT_PROG. -/
  | sesProgram (m : MboxIx)
  /-- EPOCH (R283). Session command EPOCH opens, switches or abandons an epoch slot. -/
  | sesEpoch (m : MboxIx)
  /-- RETIER (R294). Session command RETIER sets the tenant's re-tiering bounds of a sketch. -/
  | sesRetier (m : MboxIx)
  /-- ATTEST (R376). Session command ATTEST returns a signed attestation report. -/
  | sesAttest (m : MboxIx)
  /-- PERST_N (R362). Assertion of PERST_N ends all sessions and frees every mailbox. -/
  | perstN
  /-- HOST_LINK_DOWN (R362). The host link staying down for 100 ms ends all sessions. -/
  | hostLinkDown
  /-- GET_CERTS (R366). DOE object GET_CERTS returns the six certificates. -/
  | getCerts (obj : Bytes)
  /-- DOE_ATTEST (R376). DOE object ATTEST returns an attestation report. -/
  | doeAttest (obj : Bytes)
  /-- REG_TENANT (R369). DOE object REG_TENANT registers, replaces or revokes a tenant record. -/
  | regTenant (obj : Bytes)
  /-- LOAD_KEY (R373). DOE object LOAD_KEY unwraps a tenant key into a key slot after checks. -/
  | loadKey (obj : Bytes)
  /-- ERASE_KEY (R370). DOE object ERASE_KEY zeroes a key slot not in use. -/
  | eraseKey (obj : Bytes)
  /-- DEBUG_TOKEN (R378). DOE object DEBUG_TOKEN installs a debug-consent token for a polder. -/
  | debugToken (obj : Bytes)
  /-- LC_REQUEST (R380). DOE object LC_REQUEST performs a signed life-cycle transition. -/
  | lcRequest (obj : Bytes)
  /-- ADVANCE_SVN (R381). DOE object ADVANCE_SVN blows rollback fuses up to a value. -/
  | advanceSvn (obj : Bytes)
  /-- FREEZE_READOUT (R420). A management-core or JTAG read of a frozen device returns data under consent, or zeros. -/
  | freezeReadout (jtag : Bool) (x : ReadTarget)
  /-- WATCHDOG_EXPIRY (R383). Expiry of the 1 s management watchdog performs a warm reset. -/
  | watchdogExpiry
  /-- STAGE_ROM (R387). The ROM reads fuses, selects and verifies an image, derives keys and sets UDS_LOCK. -/
  | stageRom
  /-- STAGE_SUPPLY (R389). Terern sets AVSBus set-points with guardbands and awaits rail power-good. -/
  | stageSupply
  /-- STAGE_CLOCK (R389). Terern locks the reference and region PLLs and starts the timebase from the calendar. -/
  | stageClock
  /-- STAGE_WIPE (R389). Hardware wakes every present region and wipes all memories. -/
  | stageWipe
  /-- STAGE_BIST (R390). Hardware self-tests the regions six at a time, recording failures. -/
  | stageBist (x : BistResult)
  /-- STAGE_REPAIR (R391). Terern applies the repair map, retires regions and writes PRES. -/
  | stageRepair (retest : List (Nat × Nat))
  /-- STAGE_KEYS (R389). Terern derives and certifies operational keys, signs the reset certificate and publishes CAPS. -/
  | stageKeys
  /-- STAGE_HOST (R389). Terern releases the host port and power-gates unowned regions. -/
  | stageHost
  /-- STAGE_READY (R389). Terern accepts sessions and confirms a trial image. -/
  | stageReady
  /-- STAGE_LINKS (R389). Every enabled, unretired port is trained. -/
  | stageLinks
  /-- IMAGE_WRITE (R388). An I3C IMAGE_WRITE places a verified image in the idle slot and sets it on trial. -/
  | imageWrite (slotB : Bool) (image : Bytes)
  /-- LIST_CLEAR (R394). An I3C LIST_CLEAR removes a port from the retired list. -/
  | listClear (p : PortIx)
  /-- POWER_DOWN (R407). An I3C POWER_DOWN makes Terern persist records, answer READY and stop the clocks. -/
  | powerDown
  /-- FAULT_REPORT (R398). A fault report reaching the funnel opens or joins a case. -/
  | faultReport (rep : Report)
  /-- SUMMARY (R397). A router key expiring with a non-zero count sends one SUMMARY report. -/
  | summary (k : RouterKey)
  /-- CASE_CLOSE (R398). A case closes after 100 µs, ranks suspects, decides transient or permanent and raises FAULT_CASE. -/
  | caseClose
  /-- CAPPING_PASS (R399). Each ms Terern adjusts each domain's cap and stages and commits FSET. -/
  | cappingPass (x : PowerInputs)
  /-- GUARDBAND_CHECK (R402). Hourly Terern raises a half's guardband when aging margin is short. -/
  | guardbandCheck (half : HalfIx) (short : Bool) (worst : RegionIx)
  /-- REGION_WAKE (R411). REG_PWR.WAKE starts the wake sequence of a sleeping region. -/
  | regionWake (src : Writer) (r : RegionIx)
  /-- REGION_AWAKE (R412). The wake sequence completes with repair applied, tiles wiped and the tower leaving retention. -/
  | regionAwake (r : RegionIx) (pass : Bool)
  /-- REGION_SLEEP (R411). REG_PWR.SLEEP powers an unowned awake region down with its tower in retention. -/
  | regionSleep (src : Writer) (r : RegionIx)
  /-- FRZ_N_FALL (R417). A falling edge of FRZ_N with PIN enabled launches a freeze. -/
  | frzNFall
  /-- FREEZE_WT_TRIGGER (R417). Wall time reaching FRZ_TWT with WT enabled launches a freeze. -/
  | freezeWtTrigger
  /-- FREEZE (R418). FREEZE from FRZ_CTL, JTAG or I3C launches a freeze, setting F_d for every domain. -/
  | freeze (src : FrzSrc)
  /-- FREEZE_STOP (R418). Each region stops its clock after completing fc F_d − 1. -/
  | freezeStop (r : RegionIx)
  /-- THAW (R423). THAW from FRZ_CTL or I3C resumes every region at F_d, or is refused with THREJ. -/
  | thaw (src : FrzSrc) (pinLow : Bool)
  /-- THAW_WT (R423). Wall time reaching FRZ_RWT with RWTEN set orders a thaw. -/
  | thawWt (pinLow : Bool)
  /-- XFE_STEP (R210). Step j of an XFE command takes its tower slot, accumulator row, hop send or take, or index entry at its compiled fc, with slips, collisions and faults at that fc. -/
  | xfeStep (t : TileIx) (c : XChan)
  /-- REPORT_MARK_DEADLINE (R168). In fc f + 49 a member tile that has received no abort message with R0 at most f sends the report of its fault of fc f as primary. -/
  | reportMarkDeadline (t : TileIx)
  /-- TIMEBASE_HOLDOVER (R231). With SRC = 0 and neither PPS_IN edges nor the C1 peer available, the timebase free-runs in holdover and SRCA shows 3. -/
  | timebaseHoldover
  /-- PERST_N_DEASSERT (R348). Deassertion of PERST_N latches HOST_CFG.BIF, which fixes one x16 port or two x8 functions. -/
  | perstNDeassert
  /-- HOST_LINK_UP (R348). The host port's link completes training at 64 GT/s, or at a lower fallback rate, and HOST_STAT records its width and speed. -/
  | hostLinkUp (width speed : Nat)
  deriving DecidableEq, Repr

end Sys2Proof
end

