-- ==== Sys2Proof/WellFormed.lean ====
section
/-! DEFINITION. Which commands are well formed: the ranges of the operands that their types do not bound. Every meaning answers on any
operands; a command that is not well formed is one that no unit of the device or of its surroundings sends. -/
namespace Sys2Proof

/-- A number within bounds. -/
def inRange (lo x hi : Nat) : Bool := decide (lo ≤ x) && decide (x ≤ hi)

/-- A wall time (72 bits, R5). -/
def wtOk (w : Nat) : Bool := decide (w < 2 ^ 72)

/-- A fault report fits Table 17-5. -/
def Report.wf (r : Report) : Bool :=
  inRange 0 r.rep 0xFFFF && inRange 0 r.cls 0xFF && inRange 0 r.cul0 0xFFFF && inRange 0 r.cul1 0xFFFF && inRange 1 r.weight 0xFFFF &&
    wtOk r.wt && decide (r.detail.length = 13)

/-- What a read-out names exists (R25, R38, R59, R427). -/
def ReadTarget.wf : ReadTarget → Bool
  | .sram addr len => decide (addr + len ≤ 0x200000)
  | .pad _ a n => decide (a + n ≤ 0x400000)
  | .acc _ row => decide (row < 4096)
  | .reg _ off => decide (off < 0x10000)
  | .tower _ a n => decide (a + n ≤ 0x200000000)

/-- A width of a register access in bytes. -/
def widthOk (w : Nat) : Bool := [1, 2, 4, 8].contains w

/-- Lanes that a port can train (R254). -/
def lanesOk (n : Nat) : Bool := [2, 4, 8].contains n

/-- Whether a command is well formed. -/
def Instr.wellFormed : Instr → Bool
  | .registerWrite _ off width _ => decide (off < 0x10000000) && widthOk width
  | .servicePortAccess _ addr width _ => decide (addr < 0x400000) && widthOk width
  | .ringAppend _ payload => inRange 1 payload.length 288
  | .instructionFetch _ _ line => decide (line < 2048)
  | .untimedMessage q => decide (q.slot < 2)
  | .abortRequest q => decide (q.slot < 2)
  | .fireMessage _ f => decide (f.n < 2 ^ 48)
  | .monitorRequest _ m => inRange 19 m 64
  | .monitorWithdraw _ m => inRange 19 m 64
  | .avsReadback _ mv amps ceil _ => inRange 0 mv 0xFFFF && inRange 0 amps 0xFFFF && inRange 19 ceil 64
  | .timeMessage _ rx => wtOk rx
  | .dataFlit _ raw _ => decide (raw.length = 256)
  | .ctrlFlit _ raw => decide (raw.length = 256)
  | .ctrlWidth _ lanes => lanesOk lanes
  | .trainingComplete _ x => lanesOk x.peerLanes && decide (x.lead < 8) && decide (x.lead % 2 = 0)
  | .uioCompletion _ _ data => inRange 0 data.length 4096
  | .bar2Read _ len => inRange 1 len 4096
  | .bar2Write _ data => inRange 1 data.length 4096
  | .mailboxWrite _ data => inRange 1 data.length 4096
  | .getCerts obj => inRange 4 obj.length 1024
  | .doeAttest obj => inRange 4 obj.length 1024
  | .regTenant obj => inRange 4 obj.length 1024
  | .loadKey obj => inRange 4 obj.length 1024
  | .eraseKey obj => inRange 4 obj.length 1024
  | .debugToken obj => inRange 4 obj.length 1024
  | .lcRequest obj => inRange 4 obj.length 1024
  | .advanceSvn obj => inRange 4 obj.length 1024
  | .freezeReadout _ x => x.wf
  | .stageRepair retest => retest.all fun x => decide (x.1 < 24) && decide (x.2 < 6)
  | .imageWrite _ image => inRange 512 image.length 0x1000000
  | .faultReport rep => rep.wf
  | .summary k => inRange 0 k.router 0xFFFF && inRange 0 k.cls 0xFF && inRange 0 k.cul0 0xFFFF && inRange 0 k.cul1 0xFFFF
  | .hostLinkUp width speed => [1, 2, 4, 8, 16].contains width && inRange 1 speed 15
  | .coldReset _ => true
  | .warmReset => true
  | .pwrOkAonRise => true
  | .railOrderViolation _ => true
  | .railLoss _ => true
  | .refclkLockLoss => true
  | .xtalStop => true
  | .thermalTrip => true
  | .padPhaseWrite _ _ _ => true
  | .thrBndWrite _ _ _ _ => true
  | .ringCfgWrite _ _ _ _ => true
  | .ringHrel _ _ _ _ => true
  | .codeBankWrite _ _ _ _ => true
  | .codeCtlWrite _ _ _ => true
  | .twrCfgWrite _ _ _ => true
  | .twrInjWrite _ _ _ => true
  | .scrubLine _ => true
  | .scrubWriteback _ => true
  | .fixQueueWriteback _ => true
  | .aluAdd _ _ _ => true
  | .aluSub _ _ _ => true
  | .aluAnd _ _ _ => true
  | .aluOr _ _ _ => true
  | .aluXor _ _ _ => true
  | .aluSll _ _ _ => true
  | .aluSrl _ _ _ => true
  | .aluSra _ _ _ => true
  | .aluMul _ _ _ => true
  | .aluMulhu _ _ _ => true
  | .aluMin _ _ _ => true
  | .aluMax _ _ _ => true
  | .aluMinu _ _ _ => true
  | .aluMaxu _ _ _ => true
  | .aluSel _ _ _ => true
  | .aluAgl _ _ _ => true
  | .addi _ _ _ => true
  | .andi _ _ _ => true
  | .ori _ _ _ => true
  | .xori _ _ _ => true
  | .slli _ _ _ => true
  | .srli _ _ _ => true
  | .srai _ _ _ => true
  | .insi _ _ _ => true
  | .cmp _ _ _ => true
  | .cmpi _ _ _ => true
  | .br _ _ _ => true
  | .jal _ _ _ => true
  | .jr _ _ _ => true
  | .ld _ _ _ => true
  | .lw _ _ _ => true
  | .lb _ _ _ => true
  | .st _ _ _ => true
  | .sw _ _ _ => true
  | .sb _ _ _ => true
  | .rpop _ _ _ => true
  | .rpush _ _ _ => true
  | .rptr _ _ _ => true
  | .push _ _ _ => true
  | .stallResume _ _ => true
  | .send _ _ _ => true
  | .sendDrain _ => true
  | .remoteGaugeAdd _ => true
  | .gadd _ _ _ => true
  | .gset _ _ _ => true
  | .gwait _ _ _ => true
  | .gwaitWake _ _ => true
  | .gaugeTimeout _ _ => true
  | .grd _ _ _ => true
  | .gaugeWrite _ _ _ _ => true
  | .garm _ _ _ => true
  | .armReport _ _ => true
  | .gawait _ _ _ => true
  | .gunResume _ _ => true
  | .tspawn _ _ _ => true
  | .thalt _ _ _ => true
  | .pause _ _ _ => true
  | .pauseEnd _ _ => true
  | .flip _ _ _ => true
  | .flipTakeEffect _ => true
  | .csrr _ _ _ => true
  | .csrw _ _ _ => true
  | .setlc _ _ _ => true
  | .loop _ _ _ => true
  | .thrHalt _ _ _ => true
  | .thrStart _ _ _ => true
  | .loadw _ => true
  | .stream _ => true
  | .drain _ => true
  | .mxeRowIssue _ => true
  | .mxeRowWrite _ => true
  | .mxeComplete _ _ => true
  | .vadd _ => true
  | .vsub _ => true
  | .vmul _ => true
  | .vfma _ => true
  | .vmin _ => true
  | .vmax _ => true
  | .vabs _ => true
  | .vneg _ => true
  | .vmov _ => true
  | .vsplat _ => true
  | .vcmp _ => true
  | .viadd _ => true
  | .vand _ => true
  | .vor _ => true
  | .vxor _ => true
  | .vshl _ => true
  | .vshr _ => true
  | .viota _ => true
  | .vitof _ => true
  | .vftoi _ => true
  | .padd _ => true
  | .pmul _ => true
  | .pfma _ => true
  | .ppack _ => true
  | .punpk _ => true
  | .vtr _ => true
  | .vred _ => true
  | .vtopk _ => true
  | .vslot _ => true
  | .vslotclr _ => true
  | .vslotrd _ => true
  | .vrupd _ => true
  | .vdigOpen _ => true
  | .vdigClose _ => true
  | .vxeStep _ => true
  | .vxeComplete _ => true
  | .tread _ => true
  | .twrite _ => true
  | .hsend _ => true
  | .htake _ => true
  | .aread _ => true
  | .awrite _ => true
  | .icopy _ => true
  | .xfeComplete _ _ => true
  | .hopArrival _ _ _ => true
  | .readyReport _ => true
  | .fireInstant _ => true
  | .gunTimeout _ => true
  | .abortMessage _ _ => true
  | .abortInstant _ => true
  | .gunChanWrite _ _ _ => true
  | .gunRecount _ => true
  | .gunGo _ => true
  | .gunAbort _ => true
  | .restore _ _ => true
  | .gunVcfgWrite _ _ _ => true
  | .droopStretch _ _ => true
  | .stretchWave _ _ => true
  | .freqSwitch _ => true
  | .avsSet _ _ _ => true
  | .pacePulse => true
  | .ppsIn => true
  | .tbStep _ => true
  | .timebaseExchange => true
  | .flitSlot _ => true
  | .ctrlDown _ => true
  | .ctrlRetrain _ => true
  | .idleFlit _ => true
  | .holdFlit _ _ _ => true
  | .ackTimer _ => true
  | .replayTimeout _ _ => true
  | .arqRepeat _ => true
  | .windowEnd _ => true
  | .retrainAttempt _ _ => true
  | .fastRetrainFail _ => true
  | .attemptTimeout _ => true
  | .drainComplete _ => true
  | .portCtlRetrain _ _ => true
  | .portCtlDown _ _ => true
  | .graceExpiry _ => true
  | .sring _ => true
  | .sringSend _ _ => true
  | .ssluice _ => true
  | .sslot _ => true
  | .rgaddRequest _ => true
  | .grantRequest _ => true
  | .tset _ => true
  | .tclr _ => true
  | .bopen _ => true
  | .bdataRequest _ => true
  | .bclose _ => true
  | .bfetch => true
  | .ringMessage _ _ => true
  | .sluiceMessage _ _ => true
  | .slotMessage _ _ => true
  | .orderRingResume _ _ => true
  | .rgaddMessage _ _ => true
  | .grantMessage _ _ => true
  | .cmpl _ _ => true
  | .bhdr _ _ => true
  | .bdataMessage _ _ => true
  | .chunkDeliver _ _ => true
  | .bend _ _ => true
  | .babort _ _ => true
  | .batonContextTimeout _ _ => true
  | .sread => true
  | .swrite => true
  | .uioIssue => true
  | .uioTimeout _ => true
  | .epochOpen _ _ => true
  | .epochSwitch _ _ _ => true
  | .admissionSwitch _ => true
  | .epochAbandon _ _ => true
  | .epAdmit _ _ _ => true
  | .epDone _ _ => true
  | .heatIn _ _ => true
  | .heatTblWrite _ _ _ => true
  | .heatTake _ _ => true
  | .heatClear _ _ => true
  | .heatHalve _ _ => true
  | .heatQry _ _ => true
  | .updatePoint => true
  | .retierPass _ => true
  | .orderDone => true
  | .suspect => true
  | .receipt => true
  | .receiptForm => true
  | .seal _ => true
  | .rcptCfgWrite _ _ _ => true
  | .polderStart _ => true
  | .polderKill _ => true
  | .polderFinish _ => true
  | .quarantineInstant _ => true
  | .wipeStart _ => true
  | .wipeComplete _ _ => true
  | .commitGo _ => true
  | .commitAbort => true
  | .commitApply => true
  | .powerMonitorSample _ _ => true
  | .meterStatement => true
  | .hourlyPersist => true
  | .mbEvrel _ _ _ => true
  | .sesOpen _ => true
  | .sesProve _ => true
  | .sesClose _ => true
  | .sesSetUtc _ => true
  | .sesStage _ => true
  | .sesCommit _ => true
  | .sesPolder _ => true
  | .sesProgram _ => true
  | .sesEpoch _ => true
  | .sesRetier _ => true
  | .sesAttest _ => true
  | .perstN => true
  | .hostLinkDown => true
  | .watchdogExpiry => true
  | .stageRom => true
  | .stageSupply => true
  | .stageClock => true
  | .stageWipe => true
  | .stageBist _ => true
  | .stageKeys => true
  | .stageHost => true
  | .stageReady => true
  | .stageLinks => true
  | .listClear _ => true
  | .powerDown => true
  | .caseClose => true
  | .cappingPass _ => true
  | .guardbandCheck _ _ _ => true
  | .regionWake _ _ => true
  | .regionAwake _ _ => true
  | .regionSleep _ _ => true
  | .frzNFall => true
  | .freezeWtTrigger => true
  | .freeze _ => true
  | .freezeStop _ => true
  | .thaw _ _ => true
  | .thawWt _ => true
  | .xfeStep _ _ => true
  | .reportMarkDeadline _ => true
  | .timebaseHoldover => true
  | .perstNDeassert => true

end Sys2Proof
end

