-- ==== Sys2Proof/Decode.lean ====
section
/-! DEFINITION. The commands that words spell: the table of operations and events gives no row any bits, so no word spells one. -/
namespace Sys2Proof

/-- The command that an `nbits`-bit word spells by the table's bits: none, as no row has bits. -/
def decodeTableWord (_nbits _w : Nat) : Option Instr := none

end Sys2Proof
end

