-- ==== Sys2Proof/Config.lean ====
section
/-! DEFINITION. What an implementation fixes and the free values: constants without a body, so that no proof can see what they
are. -/
namespace Sys2Proof

/-- The value of free value number `n` (challenges, entropy, a key the board draws): DESIGN CHOICE, log 2. -/
opaque Config.freeValue : Nat → BitVec 512

/-- The function library of transcendental table set 1 (R141), function FN at a finite operand: UNVERIFIED, log 3. The manual fixes
the special inputs (Table 6-3) and SQRT; this is used for nothing else. -/
opaque Config.vtr : Nat → W32 → W32

/-- Codes of fault classes that no fault table of the manual gives (unit kinds 6, 7 and 9 of Table 17-5): 0 degraded window, 1
CREDLOW, 2 port retired, 3 SLUICE_VIOLATION, 4 SKEW; log 4. -/
opaque Config.faultCode : Nat → BitVec 4

/-- The fused UDS of the device and its device ID (R364, R1): per chip; log 5. -/
opaque Config.uds : BitVec 256
/-- The fused 64-bit device ID (Table 19-3). -/
opaque Config.deviceId : W64

/-- Where in the management SRAM its key area of 64 KiB lies (R422): the manual does not say; log 80. -/
opaque Config.keyArea : Nat

/-- The public keys that the ROM holds the digests of: the Ocansia firmware key (R386) and the Ocansia manufacturing key (R379); log 7. -/
opaque Config.fwKey : Bytes
opaque Config.mfgKey : Bytes
/-- The ROM version that a report carries (Table 16-5), and the device certificate that the manufacturing CA issues (R366); log 7. -/
opaque Config.romId : W64
opaque Config.deviceCert : Bytes

end Sys2Proof
end

