-- ==== Sys2Proof/Machine/Regs.lean ====
section
/-! DEFINITION. The register maps of the spec: every register's home, its width and its fields (bits, access code, reset
value), written from the block maps and field tables of chapters 02 to 18 and from Tables 19-1 to 19-3. A field's
access code is that of Table 0-2. Homes are BAR0 offsets (chip) or offsets in a tile's CSR window (tile). -/
namespace Sys2Proof.Machine

/-- Access codes, Table 0-2. -/
inductive Acc where
  | ro | rw | w1c | wo | rws | stg | rsvd
  deriving DecidableEq, Repr

/-- A field of a register: bits [hi:lo], access code, reset value (a dash of the reset column is 0 here: log 11). -/
structure Fld where
  hi : Nat
  lo : Nat
  acc : Acc
  rst : Nat
  deriving DecidableEq, Repr

/-- A register's home: base offset, strides with counts for an array, 64 bits wide or 32, in a tile's window or not. -/
structure RegInfo where
  tile : Bool
  base : Nat
  dims : List (Nat × Nat)
  wide : Bool
  flds : List Fld
  deriving DecidableEq, Repr

/-! Fields. `F.REG_FIELD` is field FIELD of register REG. -/
-- 02 Table 2-6, PAD_PHASE
def F.PAD_PHASE_PHASE : Fld := ⟨1, 0, .rw, 1⟩
-- 02 Table 2-7, PAD_ERR
def F.PAD_ERR_LINE : Fld := ⟨63, 48, .ro, 0⟩
def F.PAD_ERR_UNIT : Fld := ⟨47, 44, .ro, 0⟩
def F.PAD_ERR_THREAD : Fld := ⟨35, 32, .ro, 0⟩
def F.PAD_ERR_SLIP : Fld := ⟨6, 6, .w1c, 0⟩
def F.PAD_ERR_SVC_REJ : Fld := ⟨5, 5, .w1c, 0⟩
def F.PAD_ERR_CFG_REJ : Fld := ⟨4, 4, .w1c, 0⟩
def F.PAD_ERR_LIVE : Fld := ⟨3, 3, .w1c, 0⟩
def F.PAD_ERR_BOUNDS : Fld := ⟨2, 2, .w1c, 0⟩
def F.PAD_ERR_ACC_CRC : Fld := ⟨1, 1, .w1c, 0⟩
def F.PAD_ERR_CRC : Fld := ⟨0, 0, .w1c, 0⟩
-- 02 Table 2-8, PAD_CNT
def F.PAD_CNT_CRC_CNT : Fld := ⟨63, 48, .rw, 0⟩
def F.PAD_CNT_SLIP_CNT : Fld := ⟨47, 32, .rw, 0⟩
def F.PAD_CNT_SVC_REJ_CNT : Fld := ⟨31, 16, .rw, 0⟩
def F.PAD_CNT_ACC_CRC_CNT : Fld := ⟨15, 0, .rw, 0⟩
-- 02 Table 2-9, CODE_CTL
def F.CODE_CTL_ALL_HALTED : Fld := ⟨2, 2, .ro, 1⟩
def F.CODE_CTL_ACTIVE : Fld := ⟨0, 0, .rw, 0⟩
-- 02 Table 2-10, CODE_A
def F.CODE_A_BASE : Fld := ⟨25, 16, .rw, 0⟩
def F.CODE_A_SIZE : Fld := ⟨5, 0, .rw, 0⟩
-- 02 Table 2-10, CODE_B
def F.CODE_B_BASE : Fld := ⟨25, 16, .rw, 0⟩
def F.CODE_B_SIZE : Fld := ⟨5, 0, .rw, 0⟩
-- 02 Table 2-11, THR_BND
def F.THR_BND_EN : Fld := ⟨32, 32, .rw, 0⟩
def F.THR_BND_LIMIT : Fld := ⟨31, 16, .rw, 0⟩
def F.THR_BND_BASE : Fld := ⟨15, 0, .rw, 0⟩
-- 02 Table 2-12, RING_CFG
def F.RING_CFG_EN : Fld := ⟨63, 63, .rw, 0⟩
def F.RING_CFG_EDGE : Fld := ⟨60, 60, .rw, 0⟩
def F.RING_CFG_HOSTR : Fld := ⟨59, 59, .rw, 0⟩
def F.RING_CFG_HOSTW : Fld := ⟨58, 58, .rw, 0⟩
def F.RING_CFG_CONS : Fld := ⟨55, 52, .rw, 0⟩
def F.RING_CFG_PROD : Fld := ⟨51, 48, .rw, 0⟩
def F.RING_CFG_FMT : Fld := ⟨47, 44, .rw, 0⟩
def F.RING_CFG_ESZ : Fld := ⟨39, 36, .rw, 0⟩
def F.RING_CFG_SIZE : Fld := ⟨31, 16, .rw, 0⟩
def F.RING_CFG_BASE : Fld := ⟨15, 0, .rw, 0⟩
-- 02 Table 2-13, RING_PTR
def F.RING_PTR_TW : Fld := ⟨50, 50, .ro, 0⟩
def F.RING_PTR_TAIL : Fld := ⟨49, 32, .ro, 0⟩
def F.RING_PTR_HW : Fld := ⟨18, 18, .ro, 0⟩
def F.RING_PTR_HEAD : Fld := ⟨17, 0, .ro, 0⟩
-- 02 Table 2-14, RING_GAUGE
def F.RING_GAUGE_PEN : Fld := ⟨31, 31, .rw, 0⟩
def F.RING_GAUGE_PG : Fld := ⟨27, 24, .rw, 0⟩
def F.RING_GAUGE_CEN : Fld := ⟨23, 23, .rw, 0⟩
def F.RING_GAUGE_CG : Fld := ⟨19, 16, .rw, 0⟩
-- 02 Table 2-15, RING_HREL
def F.RING_HREL_COUNT : Fld := ⟨17, 0, .wo, 0⟩
-- 02 Table 2-16, RING_STAT
def F.RING_STAT_OVR_CNT : Fld := ⟨63, 48, .rw, 0⟩
def F.RING_STAT_FILL : Fld := ⟨31, 16, .ro, 0⟩
def F.RING_STAT_UND : Fld := ⟨1, 1, .w1c, 0⟩
def F.RING_STAT_OVR : Fld := ⟨0, 0, .w1c, 0⟩
-- 03 Table 3-5, TWR_CFG
def F.TWR_CFG_RET : Fld := ⟨8, 8, .ro, 1⟩
def F.TWR_CFG_PRES : Fld := ⟨3, 0, .rw, 15⟩
-- 03 Table 3-6, TWR_ERR
def F.TWR_ERR_BLOCK : Fld := ⟨63, 38, .ro, 0⟩
def F.TWR_ERR_HALF : Fld := ⟨37, 37, .ro, 0⟩
def F.TWR_ERR_PLAYER : Fld := ⟨36, 35, .ro, 0⟩
def F.TWR_ERR_SRC : Fld := ⟨31, 30, .ro, 0⟩
def F.TWR_ERR_TILE : Fld := ⟨29, 19, .ro, 0⟩
def F.TWR_ERR_CFG_REJ : Fld := ⟨2, 2, .w1c, 0⟩
def F.TWR_ERR_UE : Fld := ⟨1, 1, .w1c, 0⟩
def F.TWR_ERR_CE : Fld := ⟨0, 0, .w1c, 0⟩
-- 03 Table 3-7, TWR_CE_LAST
def F.TWR_CE_LAST_BLOCK : Fld := ⟨63, 38, .ro, 0⟩
def F.TWR_CE_LAST_HALF : Fld := ⟨37, 37, .ro, 0⟩
def F.TWR_CE_LAST_PLAYER : Fld := ⟨36, 35, .ro, 0⟩
def F.TWR_CE_LAST_SYM : Fld := ⟨31, 24, .ro, 0⟩
-- 03 Table 3-8, TWR_CE_CNT
def F.TWR_CE_CNT_CE3 : Fld := ⟨63, 48, .rw, 0⟩
def F.TWR_CE_CNT_CE2 : Fld := ⟨47, 32, .rw, 0⟩
def F.TWR_CE_CNT_CE1 : Fld := ⟨31, 16, .rw, 0⟩
def F.TWR_CE_CNT_CE0 : Fld := ⟨15, 0, .rw, 0⟩
-- 03 Table 3-9, TWR_CNT
def F.TWR_CNT_UE_CNT : Fld := ⟨63, 48, .rw, 0⟩
def F.TWR_CNT_VSLIP_CNT : Fld := ⟨47, 32, .rw, 0⟩
def F.TWR_CNT_SCRUB_FIX_CNT : Fld := ⟨31, 16, .rw, 0⟩
-- 03 Table 3-10, TWR_SCRUB
def F.TWR_SCRUB_PASS : Fld := ⟨63, 40, .ro, 0⟩
def F.TWR_SCRUB_POS : Fld := ⟨26, 0, .ro, 0⟩
-- 03 Table 3-11, TWR_INJ
def F.TWR_INJ_BLOCK : Fld := ⟨63, 38, .wo, 0⟩
def F.TWR_INJ_HALF : Fld := ⟨37, 37, .wo, 0⟩
def F.TWR_INJ_SYMA : Fld := ⟨31, 24, .wo, 0⟩
def F.TWR_INJ_SYMB : Fld := ⟨23, 16, .wo, 0⟩
def F.TWR_INJ_TWO : Fld := ⟨1, 1, .wo, 0⟩
def F.TWR_INJ_ARM : Fld := ⟨0, 0, .wo, 0⟩
-- 04 Table 4-16, CORE_FLT
def F.CORE_FLT_PC : Fld := ⟨58, 44, .ro, 0⟩
def F.CORE_FLT_THREAD : Fld := ⟨43, 40, .ro, 0⟩
def F.CORE_FLT_CODE : Fld := ⟨39, 32, .ro, 0⟩
def F.CORE_FLT_G_OVF : Fld := ⟨4, 4, .w1c, 0⟩
def F.CORE_FLT_PSTALL : Fld := ⟨3, 3, .w1c, 0⟩
def F.CORE_FLT_WDOG : Fld := ⟨2, 2, .w1c, 0⟩
def F.CORE_FLT_ILL : Fld := ⟨1, 1, .w1c, 0⟩
def F.CORE_FLT_FLT : Fld := ⟨0, 0, .w1c, 0⟩
-- 04 Table 4-17, CORE_CNT
def F.CORE_CNT_PSTALL_CNT : Fld := ⟨63, 48, .rw, 0⟩
def F.CORE_CNT_GTO_CNT : Fld := ⟨47, 32, .rw, 0⟩
def F.CORE_CNT_GOVF_CNT : Fld := ⟨31, 16, .rw, 0⟩
def F.CORE_CNT_ILL_CNT : Fld := ⟨15, 0, .rw, 0⟩
-- 04 Table 4-18, GWDOG
def F.GWDOG_LIMIT : Fld := ⟨15, 0, .rw, 10000⟩
-- 04 Table 4-19, QSTAT
def F.QSTAT_MXQ : Fld := ⟨25, 21, .ro, 0⟩
def F.QSTAT_VXQ : Fld := ⟨20, 15, .ro, 0⟩
def F.QSTAT_XFQ : Fld := ⟨14, 9, .ro, 0⟩
def F.QSTAT_SDQ : Fld := ⟨8, 5, .ro, 0⟩
-- 04 Table 4-20, THR_CTL
def F.THR_CTL_HALT : Fld := ⟨17, 17, .wo, 0⟩
def F.THR_CTL_START : Fld := ⟨16, 16, .wo, 0⟩
def F.THR_CTL_ENTRY : Fld := ⟨14, 0, .rw, 0⟩
-- 04 Table 4-21, THR_STAT
def F.THR_STAT_FLIPA : Fld := ⟨24, 24, .ro, 0⟩
def F.THR_STAT_STATE : Fld := ⟨23, 20, .ro, 0⟩
def F.THR_STAT_LOOPS : Fld := ⟨19, 16, .ro, 0⟩
def F.THR_STAT_PC : Fld := ⟨14, 0, .ro, 0⟩
-- 04 Table 4-22, GAUGE
def F.GAUGE_ERR : Fld := ⟨32, 32, .rw, 0⟩
def F.GAUGE_VALUE : Fld := ⟨31, 0, .rw, 0⟩
-- 05 Table 5-14, MXE_FLT
def F.MXE_FLT_THREAD : Fld := ⟨51, 48, .ro, 0⟩
def F.MXE_FLT_OPC : Fld := ⟨47, 44, .ro, 0⟩
def F.MXE_FLT_CODE : Fld := ⟨39, 32, .ro, 0⟩
def F.MXE_FLT_SPARSE : Fld := ⟨6, 6, .w1c, 0⟩
def F.MXE_FLT_PCRC : Fld := ⟨5, 5, .w1c, 0⟩
def F.MXE_FLT_ACRC : Fld := ⟨4, 4, .w1c, 0⟩
def F.MXE_FLT_OVR : Fld := ⟨3, 3, .w1c, 0⟩
def F.MXE_FLT_FMT : Fld := ⟨2, 2, .w1c, 0⟩
def F.MXE_FLT_BND : Fld := ⟨1, 1, .w1c, 0⟩
def F.MXE_FLT_ILL : Fld := ⟨0, 0, .w1c, 0⟩
-- 05 Table 5-15, MXE_CNT
def F.MXE_CNT_CMD_CNT : Fld := ⟨63, 32, .rw, 0⟩
def F.MXE_CNT_FLT_CNT : Fld := ⟨31, 16, .rw, 0⟩
-- 05 Table 5-16, MXE_STAT
def F.MXE_STAT_P1FMT : Fld := ⟨21, 18, .ro, 0⟩
def F.MXE_STAT_P1SP : Fld := ⟨17, 16, .ro, 0⟩
def F.MXE_STAT_P0FMT : Fld := ⟨15, 12, .ro, 0⟩
def F.MXE_STAT_P0SP : Fld := ⟨11, 10, .ro, 0⟩
def F.MXE_STAT_LBUSY : Fld := ⟨7, 7, .ro, 0⟩
def F.MXE_STAT_SBUSY : Fld := ⟨6, 6, .ro, 0⟩
def F.MXE_STAT_FTR_OCC : Fld := ⟨5, 0, .ro, 0⟩
-- 05 Table 5-17, MXE_ROWS
def F.MXE_ROWS_ROWS : Fld := ⟨63, 0, .ro, 0⟩
-- 05 Table 5-18, MXE_GATED
def F.MXE_GATED_GATED : Fld := ⟨63, 0, .ro, 0⟩
-- 06 Table 6-10, VXE_FLT
def F.VXE_FLT_THREAD : Fld := ⟨51, 48, .ro, 0⟩
def F.VXE_FLT_OP : Fld := ⟨47, 40, .ro, 0⟩
def F.VXE_FLT_CODE : Fld := ⟨39, 32, .ro, 0⟩
def F.VXE_FLT_LIVE : Fld := ⟨6, 6, .w1c, 0⟩
def F.VXE_FLT_PCRC : Fld := ⟨5, 5, .w1c, 0⟩
def F.VXE_FLT_UND : Fld := ⟨4, 4, .w1c, 0⟩
def F.VXE_FLT_OVR : Fld := ⟨3, 3, .w1c, 0⟩
def F.VXE_FLT_FMT : Fld := ⟨2, 2, .w1c, 0⟩
def F.VXE_FLT_BND : Fld := ⟨1, 1, .w1c, 0⟩
def F.VXE_FLT_ILL : Fld := ⟨0, 0, .w1c, 0⟩
-- 06 Table 6-11, VXE_CNT
def F.VXE_CNT_CMD_CNT : Fld := ⟨63, 32, .rw, 0⟩
def F.VXE_CNT_FLT_CNT : Fld := ⟨31, 16, .rw, 0⟩
def F.VXE_CNT_RUPD_SKIP : Fld := ⟨15, 0, .rw, 0⟩
-- 06 Table 6-12, VXE_STAT
def F.VXE_STAT_DIGO : Fld := ⟨7, 7, .ro, 0⟩
def F.VXE_STAT_BUSY : Fld := ⟨6, 6, .ro, 0⟩
-- 06 Table 6-13, FTR_PTR
def F.FTR_PTR_TW : Fld := ⟨37, 37, .ro, 0⟩
def F.FTR_PTR_TAIL : Fld := ⟨36, 32, .ro, 0⟩
def F.FTR_PTR_HW : Fld := ⟨5, 5, .ro, 0⟩
def F.FTR_PTR_HEAD : Fld := ⟨4, 0, .ro, 0⟩
-- 06 Table 6-14, VXE_DIG_LO
def F.VXE_DIG_LO_DIG_LO : Fld := ⟨63, 0, .ro, 0⟩
-- 06 Table 6-14, VXE_DIG_HI
def F.VXE_DIG_HI_DIG_HI : Fld := ⟨63, 0, .ro, 0⟩
-- 06 Table 6-14, VXE_DIGCNT
def F.VXE_DIGCNT_TILES : Fld := ⟨63, 0, .ro, 0⟩
-- 07 Table 7-9, GUN_CHAN
def F.GUN_CHAN_EN : Fld := ⟨63, 63, .rw, 0⟩
def F.GUN_CHAN_RERUN : Fld := ⟨62, 62, .rw, 0⟩
def F.GUN_CHAN_UTA : Fld := ⟨61, 61, .rw, 1⟩
def F.GUN_CHAN_PHASE : Fld := ⟨59, 56, .rw, 0⟩
def F.GUN_CHAN_LEAD : Fld := ⟨55, 46, .rw, 64⟩
def F.GUN_CHAN_POLDER : Fld := ⟨45, 43, .rw, 0⟩
def F.GUN_CHAN_EXPECT : Fld := ⟨34, 24, .rw, 0⟩
def F.GUN_CHAN_RMASK : Fld := ⟨23, 0, .rw, 0⟩
-- 07 Table 7-10, GUN_STAT
def F.GUN_STAT_STATE : Fld := ⟨63, 61, .ro, 0⟩
def F.GUN_STAT_RETRY : Fld := ⟨60, 59, .ro, 0⟩
def F.GUN_STAT_COUNT : Fld := ⟨58, 48, .ro, 0⟩
def F.GUN_STAT_MISS : Fld := ⟨46, 36, .ro, 0⟩
def F.GUN_STAT_ABORT_CNT : Fld := ⟨35, 20, .ro, 0⟩
def F.GUN_STAT_STRAY : Fld := ⟨4, 4, .w1c, 0⟩
def F.GUN_STAT_UNT : Fld := ⟨3, 3, .w1c, 0⟩
def F.GUN_STAT_CFG_REJ : Fld := ⟨2, 2, .w1c, 0⟩
def F.GUN_STAT_ERR : Fld := ⟨1, 1, .w1c, 0⟩
def F.GUN_STAT_TMO : Fld := ⟨0, 0, .w1c, 0⟩
-- 07 Table 7-11, GUN_LAST
def F.GUN_LAST_VERDICT : Fld := ⟨63, 48, .ro, 0⟩
def F.GUN_LAST_N : Fld := ⟨47, 0, .ro, 0⟩
-- 07 Table 7-12, GUN_LIM
def F.GUN_LIM_LIMIT : Fld := ⟨15, 0, .rw, 10000⟩
-- 07 Table 7-13, GUN_CTL
def F.GUN_CTL_RECOUNT : Fld := ⟨2, 2, .wo, 0⟩
def F.GUN_CTL_GO : Fld := ⟨1, 1, .wo, 0⟩
def F.GUN_CTL_ABORT : Fld := ⟨0, 0, .wo, 0⟩
-- 07 Table 7-14, SEG_STAT
def F.SEG_STAT_SEG_CNT : Fld := ⟨63, 32, .ro, 0⟩
def F.SEG_STAT_UNT : Fld := ⟨13, 13, .ro, 0⟩
def F.SEG_STAT_CKV : Fld := ⟨12, 12, .ro, 0⟩
def F.SEG_STAT_SLOT : Fld := ⟨11, 11, .ro, 0⟩
def F.SEG_STAT_VALID : Fld := ⟨7, 7, .ro, 0⟩
def F.SEG_STAT_CH : Fld := ⟨5, 0, .ro, 0⟩
-- 07 Table 7-15, SEG_FLT
def F.SEG_FLT_FC : Fld := ⟨63, 48, .ro, 0⟩
def F.SEG_FLT_DIR : Fld := ⟨43, 42, .ro, 0⟩
def F.SEG_FLT_CODE : Fld := ⟨39, 32, .ro, 0⟩
def F.SEG_FLT_SEC : Fld := ⟨4, 4, .w1c, 0⟩
def F.SEG_FLT_LATE : Fld := ⟨3, 3, .w1c, 0⟩
def F.SEG_FLT_MISS : Fld := ⟨2, 2, .w1c, 0⟩
def F.SEG_FLT_COLL : Fld := ⟨1, 1, .w1c, 0⟩
def F.SEG_FLT_FS : Fld := ⟨0, 0, .w1c, 0⟩
-- 07 Table 7-16, SEG_CTL
def F.SEG_CTL_RESTORE : Fld := ⟨0, 0, .wo, 0⟩
-- 08 Table 8-7, EXP_ERR
def F.EXP_ERR_WLINE : Fld := ⟨63, 48, .ro, 0⟩
def F.EXP_ERR_PDECL : Fld := ⟨47, 36, .ro, 0⟩
def F.EXP_ERR_PACT : Fld := ⟨35, 24, .ro, 0⟩
def F.EXP_ERR_CAUSE : Fld := ⟨23, 20, .ro, 0⟩
def F.EXP_ERR_MM : Fld := ⟨0, 0, .w1c, 0⟩
-- 08 Table 8-8, EXP_CNT
def F.EXP_CNT_BLK_CNT : Fld := ⟨63, 32, .rw, 0⟩
def F.EXP_CNT_MM_CNT : Fld := ⟨31, 16, .rw, 0⟩
-- 08 Table 8-9, EXP_STAT
def F.EXP_STAT_EBUSY : Fld := ⟨2, 2, .ro, 0⟩
def F.EXP_STAT_FIN1 : Fld := ⟨1, 1, .ro, 0⟩
def F.EXP_STAT_FIN0 : Fld := ⟨0, 0, .ro, 0⟩
-- 08 Table 8-10, GUN_VCFG
def F.GUN_VCFG_VDEF : Fld := ⟨63, 48, .rw, 0⟩
def F.GUN_VCFG_MODE : Fld := ⟨47, 45, .rw, 0⟩
def F.GUN_VCFG_LEADT : Fld := ⟨43, 33, .rw, 0⟩
def F.GUN_VCFG_VCTILE : Fld := ⟨32, 22, .ro, 0⟩
def F.GUN_VCFG_VCONF : Fld := ⟨0, 0, .w1c, 0⟩
-- 09 Table 9-7, REG_CLK
def F.REG_CLK_LOCK : Fld := ⟨63, 63, .ro, 0⟩
def F.REG_CLK_AWAKE : Fld := ⟨62, 62, .ro, 0⟩
def F.REG_CLK_FMON : Fld := ⟨54, 48, .ro, 64⟩
def F.REG_CLK_ORIG15 : Fld := ⟨47, 32, .rw, 0⟩
def F.REG_CLK_ORIG20 : Fld := ⟨31, 16, .rw, 0⟩
def F.REG_CLK_SKEW : Fld := ⟨1, 1, .w1c, 0⟩
def F.REG_CLK_DEFER : Fld := ⟨0, 0, .w1c, 0⟩
-- 09 Table 9-8, DOM_CFG
def F.DOM_CFG_FSET : Fld := ⟨6, 0, .stg, 64⟩
-- 09 Table 9-9, DOM_STAT
def F.DOM_STAT_WAVE_CNT : Fld := ⟨63, 32, .ro, 0⟩
def F.DOM_STAT_FAPP : Fld := ⟨24, 18, .ro, 19⟩
def F.DOM_STAT_FMON : Fld := ⟨17, 11, .ro, 64⟩
def F.DOM_STAT_FHALF : Fld := ⟨10, 4, .ro, 19⟩
def F.DOM_STAT_LIM : Fld := ⟨3, 2, .ro, 2⟩
-- 09 Table 9-8, HALF_CFG
def F.HALF_CFG_FMAX : Fld := ⟨6, 0, .stg, 64⟩
-- 09 Table 9-10, HALF_STAT
def F.HALF_STAT_MV : Fld := ⟨63, 48, .ro, 0⟩
def F.HALF_STAT_FCEIL : Fld := ⟨38, 32, .ro, 19⟩
def F.HALF_STAT_FMAXA : Fld := ⟨6, 0, .ro, 19⟩
-- 09 Table 9-11, SEAM_CFG
def F.SEAM_CFG_MODE : Fld := ⟨0, 0, .stg, 0⟩
-- 09 Table 9-11, SEAM_STAT
def F.SEAM_STAT_SR_FLITS : Fld := ⟨63, 32, .ro, 0⟩
def F.SEAM_STAT_MODEA : Fld := ⟨0, 0, .ro, 0⟩
-- 09 Table 9-12, TB_NOW
def F.TB_NOW_NS : Fld := ⟨63, 0, .ro, 0⟩
-- 09 Table 9-12, TB_FRAC
def F.TB_FRAC_FRAC : Fld := ⟨7, 0, .ro, 0⟩
-- 09 Table 9-13, TB_CTL
def F.TB_CTL_STEP : Fld := ⟨31, 31, .wo, 0⟩
def F.TB_CTL_PPS_EN : Fld := ⟨30, 30, .rw, 0⟩
def F.TB_CTL_SLEWMAX : Fld := ⟨23, 16, .rw, 200⟩
def F.TB_CTL_SRC : Fld := ⟨9, 8, .rw, 0⟩
def F.TB_CTL_UPATH : Fld := ⟨4, 0, .rw, 0⟩
-- 09 Table 9-14, TB_STAT
def F.TB_STAT_OFFSET : Fld := ⟨63, 32, .ro, 0⟩
def F.TB_STAT_DELAY : Fld := ⟨31, 16, .ro, 0⟩
def F.TB_STAT_SRCA : Fld := ⟨4, 3, .ro, 0⟩
def F.TB_STAT_LOCK : Fld := ⟨2, 2, .ro, 0⟩
def F.TB_STAT_STEPREJ : Fld := ⟨1, 1, .w1c, 0⟩
def F.TB_STAT_STEPPED : Fld := ⟨0, 0, .w1c, 0⟩
-- 09 Table 9-12, TB_PPS
def F.TB_PPS_NS : Fld := ⟨63, 0, .ro, 0⟩
-- 09 Table 9-12, TB_SET
def F.TB_SET_NS : Fld := ⟨63, 0, .wo, 0⟩
-- 09 Table 9-12, CAL
def F.CAL_SEC : Fld := ⟨63, 0, .rw, 0⟩
-- 09 Table 9-12, TB_ASYM
def F.TB_ASYM_ASYM : Fld := ⟨15, 0, .rws, 0⟩
-- 09 Table 9-15, XFE_FLT
def F.XFE_FLT_THREAD : Fld := ⟨51, 48, .ro, 0⟩
def F.XFE_FLT_OPC : Fld := ⟨47, 44, .ro, 0⟩
def F.XFE_FLT_CODE : Fld := ⟨39, 32, .ro, 0⟩
def F.XFE_FLT_LIVE : Fld := ⟨5, 5, .w1c, 0⟩
def F.XFE_FLT_TUE : Fld := ⟨4, 4, .w1c, 0⟩
def F.XFE_FLT_ACRC : Fld := ⟨3, 3, .w1c, 0⟩
def F.XFE_FLT_PCRC : Fld := ⟨2, 2, .w1c, 0⟩
def F.XFE_FLT_BND : Fld := ⟨1, 1, .w1c, 0⟩
def F.XFE_FLT_ILL : Fld := ⟨0, 0, .w1c, 0⟩
-- 09 Table 9-15, XFE_CNT
def F.XFE_CNT_CMD_CNT : Fld := ⟨63, 32, .rw, 0⟩
def F.XFE_CNT_FLT_CNT : Fld := ⟨31, 16, .rw, 0⟩
def F.XFE_CNT_ISKIP_CNT : Fld := ⟨15, 0, .rw, 0⟩
-- 10 Table 10-14, PORT_CFG
def F.PORT_CFG_WIDTH : Fld := ⟨3, 2, .stg, 0⟩
def F.PORT_CFG_EN : Fld := ⟨0, 0, .stg, 0⟩
-- 10 Table 10-15, PORT_STAT
def F.PORT_STAT_PEERID : Fld := ⟨63, 48, .ro, 0⟩
def F.PORT_STAT_DOWNS24 : Fld := ⟨47, 40, .ro, 0⟩
def F.PORT_STAT_STATE : Fld := ⟨36, 34, .ro, 0⟩
def F.PORT_STAT_WIDTHA : Fld := ⟨33, 32, .ro, 0⟩
def F.PORT_STAT_FAILS : Fld := ⟨31, 30, .ro, 0⟩
def F.PORT_STAT_DEG : Fld := ⟨29, 29, .ro, 0⟩
def F.PORT_STAT_CREDLOW : Fld := ⟨28, 28, .ro, 0⟩
def F.PORT_STAT_PDN_CNT : Fld := ⟨27, 12, .rw, 0⟩
-- 10 Table 10-15, PORT_PEER
def F.PORT_PEER_DEVID : Fld := ⟨63, 0, .ro, 0⟩
-- 10 Table 10-16, PORT_ERR
def F.PORT_ERR_CAUSE : Fld := ⟨31, 24, .ro, 0⟩
def F.PORT_ERR_PEERMM : Fld := ⟨7, 7, .w1c, 0⟩
def F.PORT_ERR_RET : Fld := ⟨6, 6, .w1c, 0⟩
def F.PORT_ERR_WREJ : Fld := ⟨5, 5, .w1c, 0⟩
def F.PORT_ERR_DOWN : Fld := ⟨4, 4, .w1c, 0⟩
def F.PORT_ERR_DEG : Fld := ⟨3, 3, .w1c, 0⟩
def F.PORT_ERR_CREDLOW : Fld := ⟨2, 2, .w1c, 0⟩
def F.PORT_ERR_CRC : Fld := ⟨1, 1, .w1c, 0⟩
def F.PORT_ERR_GAP : Fld := ⟨0, 0, .w1c, 0⟩
-- 10 Table 10-17, PORT_WIN
def F.PORT_WIN_RPL : Fld := ⟨63, 48, .ro, 0⟩
def F.PORT_WIN_CRCE : Fld := ⟨47, 32, .ro, 0⟩
def F.PORT_WIN_FECU : Fld := ⟨31, 16, .ro, 0⟩
-- 10 Table 10-17, PORT_CNT
def F.PORT_CNT_RPL_TOT : Fld := ⟨63, 32, .rws, 0⟩
def F.PORT_CNT_RETRAINS : Fld := ⟨31, 16, .rws, 0⟩
def F.PORT_CNT_DUP_CNT : Fld := ⟨15, 0, .rw, 0⟩
-- 10 Table 10-17, PORT_CRED
def F.PORT_CRED_CLS : Fld := ⟨35, 32, .ro, 0⟩
def F.PORT_CRED_WMAX : Fld := ⟨31, 16, .ro, 0⟩
def F.PORT_CRED_ADV : Fld := ⟨15, 0, .ro, 0⟩
-- 10 Table 10-18, PORT_CTL
def F.PORT_CTL_RETRAIN : Fld := ⟨1, 1, .wo, 0⟩
def F.PORT_CTL_DOWN : Fld := ⟨0, 0, .wo, 0⟩
-- 10 Table 10-19, PATH_CFG
def F.PATH_CFG_EN : Fld := ⟨63, 63, .stg, 0⟩
def F.PATH_CFG_GRACE : Fld := ⟨55, 48, .stg, 5⟩
def F.PATH_CFG_POLDERS : Fld := ⟨47, 40, .stg, 0⟩
def F.PATH_CFG_PORTS : Fld := ⟨31, 16, .stg, 0⟩
def F.PATH_CFG_PEER : Fld := ⟨15, 0, .stg, 0⟩
-- 10 Table 10-19, PATH_STAT
def F.PATH_STAT_STATE : Fld := ⟨63, 61, .ro, 0⟩
def F.PATH_STAT_USABLE : Fld := ⟨47, 32, .ro, 0⟩
def F.PATH_STAT_GEXP_CNT : Fld := ⟨31, 16, .rw, 0⟩
def F.PATH_STAT_FLUSH_CNT : Fld := ⟨15, 0, .rw, 0⟩
-- 10 Table 10-20, LINK_ID
def F.LINK_ID_PEERID : Fld := ⟨15, 0, .stg, 0⟩
-- 10 Table 10-20, HUB_CNT
def F.HUB_CNT_TENANT_DROP_CNT : Fld := ⟨63, 48, .rw, 0⟩
def F.HUB_CNT_SLV_CNT : Fld := ⟨47, 32, .rw, 0⟩
def F.HUB_CNT_OVR_CNT : Fld := ⟨31, 16, .rw, 0⟩
def F.HUB_CNT_BADREQ_CNT : Fld := ⟨15, 0, .rw, 0⟩
-- 10 Table 10-20, PEERTAB
def F.PEERTAB_V : Fld := ⟨31, 31, .stg, 0⟩
def F.PEERTAB_PEERID : Fld := ⟨15, 0, .stg, 0⟩
-- 11 Table 11-13, EP_ID
def F.EP_ID_JOB : Fld := ⟨63, 32, .rw, 0⟩
def F.EP_ID_EPOCH : Fld := ⟨31, 0, .rw, 0⟩
-- 11 Table 11-13, EP_SH
def F.EP_SH_STATE : Fld := ⟨63, 61, .ro, 0⟩
def F.EP_SH_VCNT : Fld := ⟨60, 48, .ro, 0⟩
def F.EP_SH_NCOM : Fld := ⟨47, 35, .rw, 0⟩
def F.EP_SH_NBAT : Fld := ⟨34, 22, .rw, 0⟩
def F.EP_SH_LV : Fld := ⟨21, 21, .ro, 0⟩
def F.EP_SH_FV : Fld := ⟨20, 20, .ro, 0⟩
def F.EP_SH_SHARD : Fld := ⟨15, 0, .rw, 0⟩
-- 11 Table 11-13, EP_RANGE
def F.EP_RANGE_LAST_B : Fld := ⟨63, 32, .ro, 0⟩
def F.EP_RANGE_FIRST_B : Fld := ⟨31, 0, .ro, 0⟩
-- 11 Table 11-13, EP_DIG
def F.EP_DIG_DIG : Fld := ⟨63, 0, .rw, 0⟩
-- 11 Table 11-13, EP_CFG
def F.EP_CFG_ADM : Fld := ⟨31, 31, .rw, 0⟩
def F.EP_CFG_REJ : Fld := ⟨29, 29, .w1c, 0⟩
def F.EP_CFG_RET : Fld := ⟨28, 28, .w1c, 0⟩
def F.EP_CFG_ATILE : Fld := ⟨10, 0, .rw, 0⟩
-- 11 Table 11-13, EP_CTL
def F.EP_CTL_ARG : Fld := ⟨63, 32, .wo, 0⟩
def F.EP_CTL_SLOT : Fld := ⟨4, 3, .wo, 0⟩
def F.EP_CTL_OP : Fld := ⟨2, 0, .wo, 0⟩
-- 11 Table 11-13, EP_STAT
def F.EP_STAT_NEXT_B : Fld := ⟨63, 32, .ro, 0⟩
def F.EP_STAT_DONE_B : Fld := ⟨31, 0, .ro, 0⟩
-- 11 Table 11-14, EP_ADMIT
def F.EP_ADMIT_BATCH : Fld := ⟨63, 32, .ro, 0⟩
def F.EP_ADMIT_EPOCH : Fld := ⟨31, 0, .ro, 0⟩
-- 11 Table 11-14, HEAT_IN
def F.HEAT_IN_SLOW : Fld := ⟨63, 63, .wo, 0⟩
def F.HEAT_IN_TABLE : Fld := ⟨61, 56, .wo, 0⟩
def F.HEAT_IN_ROW : Fld := ⟨35, 0, .wo, 0⟩
-- 11 Table 11-14, EP_DONE
def F.EP_DONE_BATCH : Fld := ⟨31, 0, .wo, 0⟩
-- 11 Table 11-15, HEAT_TBL
def F.HEAT_TBL_EN : Fld := ⟨63, 63, .rw, 0⟩
def F.HEAT_TBL_RETIER : Fld := ⟨62, 62, .rw, 0⟩
def F.HEAT_TBL_POLDER : Fld := ⟨61, 59, .rw, 0⟩
def F.HEAT_TBL_TABLE : Fld := ⟨58, 53, .rw, 0⟩
def F.HEAT_TBL_DECAY : Fld := ⟨52, 49, .rw, 0⟩
def F.HEAT_TBL_MOVEMAX : Fld := ⟨47, 32, .rw, 0⟩
def F.HEAT_TBL_PROMO : Fld := ⟨31, 16, .rw, 65535⟩
-- 11 Table 11-15, HEAT_CTL
def F.HEAT_CTL_SK : Fld := ⟨13, 8, .wo, 0⟩
def F.HEAT_CTL_TAKE : Fld := ⟨2, 2, .wo, 0⟩
def F.HEAT_CTL_CLEAR : Fld := ⟨1, 1, .wo, 0⟩
def F.HEAT_CTL_HALVE : Fld := ⟨0, 0, .wo, 0⟩
-- 11 Table 11-15, HEAT_QRY
def F.HEAT_QRY_SK : Fld := ⟨41, 36, .wo, 0⟩
def F.HEAT_QRY_ROW : Fld := ⟨35, 0, .wo, 0⟩
-- 11 Table 11-15, HEAT_EST
def F.HEAT_EST_VALID : Fld := ⟨31, 31, .ro, 0⟩
def F.HEAT_EST_EST : Fld := ⟨15, 0, .ro, 0⟩
-- 11 Table 11-15, HEAT_SEL
def F.HEAT_SEL_SK : Fld := ⟨13, 8, .rw, 0⟩
def F.HEAT_SEL_ENTRY : Fld := ⟨5, 0, .rw, 0⟩
-- 11 Table 11-15, HEAT_CAND
def F.HEAT_CAND_V : Fld := ⟨63, 63, .ro, 0⟩
def F.HEAT_CAND_EST : Fld := ⟨51, 36, .ro, 0⟩
def F.HEAT_CAND_ROW : Fld := ⟨35, 0, .ro, 0⟩
-- 11 Table 11-15, HEAT_CNT
def F.HEAT_CNT_IN_CNT : Fld := ⟨63, 32, .rw, 0⟩
def F.HEAT_CNT_DROP_CNT : Fld := ⟨31, 16, .rw, 0⟩
-- 11 Table 11-16, SLOW_BASE
def F.SLOW_BASE_BASE : Fld := ⟨63, 12, .stg, 0⟩
-- 11 Table 11-16, SLOW_LIM
def F.SLOW_LIM_LINES : Fld := ⟨48, 0, .stg, 0⟩
-- 11 Table 11-16, ORD_CFG
def F.ORD_CFG_EN : Fld := ⟨31, 31, .rw, 0⟩
def F.ORD_CFG_TILE : Fld := ⟨15, 5, .rw, 0⟩
def F.ORD_CFG_RING : Fld := ⟨4, 0, .rw, 0⟩
-- 11 Table 11-16, SLOW_CNT
def F.SLOW_CNT_BADREQ_CNT : Fld := ⟨63, 48, .rw, 0⟩
def F.SLOW_CNT_UIOERR_CNT : Fld := ⟨47, 32, .rw, 0⟩
def F.SLOW_CNT_REQ_CNT : Fld := ⟨31, 0, .rw, 0⟩
-- 11 Table 11-16, BAT_STAT
def F.BAT_STAT_CAUSE : Fld := ⟨63, 56, .ro, 0⟩
def F.BAT_STAT_CTX : Fld := ⟨55, 52, .ro, 0⟩
def F.BAT_STAT_INDEX : Fld := ⟨47, 32, .ro, 0⟩
def F.BAT_STAT_TENANT : Fld := ⟨31, 16, .ro, 0⟩
def F.BAT_STAT_REJ : Fld := ⟨0, 0, .w1c, 0⟩
-- 11 Table 11-16, BAT_CNT
def F.BAT_CNT_OK_CNT : Fld := ⟨63, 32, .rw, 0⟩
def F.BAT_CNT_REJ_CNT : Fld := ⟨31, 16, .rw, 0⟩
-- 12 Table 12-6, PACK_CFG
def F.PACK_CFG_RX4 : Fld := ⟨31, 24, .stg, 0⟩
def F.PACK_CFG_RX3 : Fld := ⟨23, 16, .stg, 0⟩
def F.PACK_CFG_TX4 : Fld := ⟨15, 8, .stg, 0⟩
def F.PACK_CFG_TX3 : Fld := ⟨7, 0, .stg, 0⟩
-- 12 Table 12-8, PACK_CNT
def F.PACK_CNT_BLK_TX : Fld := ⟨63, 40, .rw, 0⟩
def F.PACK_CNT_BLK_RX : Fld := ⟨39, 16, .rw, 0⟩
def F.PACK_CNT_NONFIN_CNT : Fld := ⟨15, 8, .rw, 0⟩
def F.PACK_CNT_FMT_CNT : Fld := ⟨7, 0, .rw, 0⟩
-- 12 Table 12-8, PACK_ERR
def F.PACK_ERR_BIDX : Fld := ⟨63, 48, .ro, 0⟩
def F.PACK_ERR_CAUSE : Fld := ⟨47, 44, .ro, 0⟩
def F.PACK_ERR_PATH : Fld := ⟨36, 32, .ro, 0⟩
def F.PACK_ERR_FE : Fld := ⟨0, 0, .w1c, 0⟩
-- 13 Table 13-6, DET_CFG
def F.DET_CFG_DET : Fld := ⟨0, 0, .stg, 0⟩
-- 13 Table 13-6, RCPT_CFG
def F.RCPT_CFG_EN : Fld := ⟨31, 31, .rw, 0⟩
def F.RCPT_CFG_TILE : Fld := ⟨15, 5, .rw, 0⟩
def F.RCPT_CFG_RING : Fld := ⟨4, 0, .rw, 0⟩
-- 13 Table 13-6, RCPT_SEQ
def F.RCPT_SEQ_SEQ : Fld := ⟨63, 0, .ro, 0⟩
-- 13 Table 13-6, RCPT_UPD
def F.RCPT_UPD_UPD : Fld := ⟨63, 0, .rw, 0⟩
-- 13 Table 13-6, RCPT_STAT
def F.RCPT_STAT_REJ_CNT : Fld := ⟨63, 48, .rw, 0⟩
def F.RCPT_STAT_CAUSE : Fld := ⟨47, 44, .ro, 0⟩
def F.RCPT_STAT_CFG_REJ : Fld := ⟨1, 1, .w1c, 0⟩
def F.RCPT_STAT_REJ : Fld := ⟨0, 0, .w1c, 0⟩
-- 13 Table 13-6, RCPT_PROG
def F.RCPT_PROG_DIG : Fld := ⟨63, 0, .rw, 0⟩
-- 13 Table 13-6, RCPT_HEAD
def F.RCPT_HEAD_DIG : Fld := ⟨63, 0, .ro, 0⟩
-- 14 Table 14-9, POLDER_CFG
def F.POLDER_CFG_TENANT : Fld := ⟨39, 24, .stg, 0⟩
def F.POLDER_CFG_RMASK : Fld := ⟨23, 0, .stg, 0⟩
-- 14 Table 14-9, POLDER_STAT
def F.POLDER_STAT_STATE : Fld := ⟨63, 61, .ro, 0⟩
def F.POLDER_STAT_CFG_REJ : Fld := ⟨60, 60, .w1c, 0⟩
def F.POLDER_STAT_WDONE : Fld := ⟨47, 24, .ro, 0⟩
def F.POLDER_STAT_WFAIL : Fld := ⟨23, 0, .ro, 0⟩
-- 14 Table 14-9, POLDER_WT
def F.POLDER_WT_NS : Fld := ⟨63, 0, .ro, 0⟩
-- 14 Table 14-9, POLDER_CTL
def F.POLDER_CTL_FINISH : Fld := ⟨2, 2, .wo, 0⟩
def F.POLDER_CTL_KILL : Fld := ⟨1, 1, .wo, 0⟩
def F.POLDER_CTL_START : Fld := ⟨0, 0, .wo, 0⟩
-- 14 Table 14-9, DIKE_STAT
def F.DIKE_STAT_SVC_DROP : Fld := ⟨63, 32, .rw, 0⟩
def F.DIKE_STAT_BAR2_ABORT : Fld := ⟨31, 16, .rw, 0⟩
-- 14 Table 14-10, COMMIT_CTL
def F.COMMIT_CTL_GO : Fld := ⟨31, 31, .wo, 0⟩
def F.COMMIT_CTL_ABORT : Fld := ⟨30, 30, .wo, 0⟩
def F.COMMIT_CTL_AT_GUN : Fld := ⟨29, 29, .wo, 0⟩
def F.COMMIT_CTL_CH : Fld := ⟨5, 0, .wo, 0⟩
-- 14 Table 14-10, COMMIT_AT
def F.COMMIT_AT_NS : Fld := ⟨63, 0, .rw, 0⟩
-- 14 Table 14-10, COMMIT_STAT
def F.COMMIT_STAT_STATE : Fld := ⟨63, 62, .ro, 0⟩
def F.COMMIT_STAT_CODE : Fld := ⟨61, 56, .ro, 0⟩
def F.COMMIT_STAT_ITEM : Fld := ⟨55, 48, .ro, 0⟩
def F.COMMIT_STAT_LATE : Fld := ⟨47, 47, .ro, 0⟩
def F.COMMIT_STAT_CFG_REJ : Fld := ⟨1, 1, .w1c, 0⟩
def F.COMMIT_STAT_REJ : Fld := ⟨0, 0, .w1c, 0⟩
-- 14 Table 14-10, COMMIT_WT
def F.COMMIT_WT_NS : Fld := ⟨63, 0, .ro, 0⟩
-- 14 Table 14-11, METER_CFG
def F.METER_CFG_INTERVAL : Fld := ⟨11, 0, .stg, 60⟩
-- 14 Table 14-11, METER_IDLE
def F.METER_IDLE_UJ : Fld := ⟨63, 0, .ro, 0⟩
-- 14 Table 14-11, MTR
def F.MTR_VALUE : Fld := ⟨63, 0, .rw, 0⟩
-- 15 Table 15-10, HOST_ID
def F.HOST_ID_IFMAJ : Fld := ⟨63, 56, .ro, 0⟩
def F.HOST_ID_IFMIN : Fld := ⟨55, 48, .ro, 0⟩
-- 15 Table 15-10, HOST_CFG
def F.HOST_CFG_BIF : Fld := ⟨0, 0, .rws, 0⟩
-- 15 Table 15-10, HOST_STAT
def F.HOST_STAT_WIDTH : Fld := ⟨60, 56, .ro, 0⟩
def F.HOST_STAT_SPEED : Fld := ⟨55, 52, .ro, 0⟩
def F.HOST_STAT_UR_CNT : Fld := ⟨47, 32, .rw, 0⟩
def F.HOST_STAT_CA_CNT : Fld := ⟨31, 16, .rw, 0⟩
def F.HOST_STAT_HOST_DENY : Fld := ⟨15, 0, .rw, 0⟩
-- 15 Table 15-10, UIO_STAT
def F.UIO_STAT_TMO_CNT : Fld := ⟨63, 48, .rw, 0⟩
def F.UIO_STAT_OUT : Fld := ⟨9, 0, .ro, 0⟩
-- 15 Table 15-10, UIO_TGT
def F.UIO_TGT_EN : Fld := ⟨63, 63, .rw, 0⟩
def F.UIO_TGT_IDE : Fld := ⟨62, 62, .rw, 0⟩
def F.UIO_TGT_STREAM : Fld := ⟨18, 16, .rw, 0⟩
def F.UIO_TGT_DPID : Fld := ⟨11, 0, .rw, 0⟩
-- 15 Table 15-10, SESS
def F.SESS_STATE : Fld := ⟨63, 61, .ro, 0⟩
def F.SESS_KIND : Fld := ⟨60, 60, .ro, 0⟩
def F.SESS_TENANT : Fld := ⟨47, 32, .ro, 0⟩
def F.SESS_REQID : Fld := ⟨31, 16, .ro, 0⟩
def F.SESS_IFMAJ : Fld := ⟨15, 8, .ro, 0⟩
def F.SESS_IFMIN : Fld := ⟨7, 0, .ro, 0⟩
-- 15 Table 15-11, MB_STAT
def F.MB_STAT_STATE : Fld := ⟨63, 61, .ro, 0⟩
def F.MB_STAT_FILL : Fld := ⟨47, 40, .ro, 0⟩
def F.MB_STAT_CTW : Fld := ⟨39, 39, .ro, 0⟩
def F.MB_STAT_CTAIL : Fld := ⟨38, 35, .ro, 0⟩
def F.MB_STAT_CHW : Fld := ⟨34, 34, .ro, 0⟩
def F.MB_STAT_CHEAD : Fld := ⟨33, 30, .ro, 0⟩
def F.MB_STAT_ETW : Fld := ⟨29, 29, .ro, 0⟩
def F.MB_STAT_ETAIL : Fld := ⟨28, 23, .ro, 0⟩
def F.MB_STAT_EHW : Fld := ⟨22, 22, .ro, 0⟩
def F.MB_STAT_EHEAD : Fld := ⟨21, 16, .ro, 0⟩
def F.MB_STAT_UND : Fld := ⟨0, 0, .w1c, 0⟩
-- 15 Table 15-11, MB_EVREL
def F.MB_EVREL_COUNT : Fld := ⟨6, 0, .wo, 0⟩
-- 15 Table 15-11, MB_CNT
def F.MB_CNT_OVR_CNT : Fld := ⟨63, 48, .rw, 0⟩
def F.MB_CNT_FOREIGN : Fld := ⟨47, 32, .rw, 0⟩
-- 16 Table 16-9, KEY_BIND
def F.KEY_BIND_EN : Fld := ⟨63, 63, .stg, 0⟩
def F.KEY_BIND_POLDERS : Fld := ⟨55, 48, .stg, 0⟩
def F.KEY_BIND_TENANT : Fld := ⟨47, 32, .stg, 0⟩
def F.KEY_BIND_KEYID : Fld := ⟨31, 0, .stg, 0⟩
-- 16 Table 16-9, KEY_STAT
def F.KEY_STAT_LOADED : Fld := ⟨63, 63, .ro, 0⟩
def F.KEY_STAT_INUSE : Fld := ⟨55, 48, .ro, 0⟩
def F.KEY_STAT_TENANT : Fld := ⟨47, 32, .ro, 0⟩
def F.KEY_STAT_KEYID : Fld := ⟨31, 0, .ro, 0⟩
-- 16 Table 16-9, LC_STAT
def F.LC_STAT_LC : Fld := ⟨31, 29, .ro, 0⟩
def F.LC_STAT_OWNER : Fld := ⟨28, 27, .ro, 0⟩
def F.LC_STAT_OWNED : Fld := ⟨26, 26, .ro, 0⟩
def F.LC_STAT_UDSL : Fld := ⟨25, 25, .ro, 0⟩
def F.LC_STAT_SVNCNT : Fld := ⟨22, 16, .ro, 0⟩
def F.LC_STAT_ISVN : Fld := ⟨15, 8, .ro, 0⟩
-- 16 Table 16-9, KM_STAT
def F.KM_STAT_OBJ : Fld := ⟨63, 56, .ro, 0⟩
def F.KM_STAT_STATUS : Fld := ⟨55, 48, .ro, 0⟩
def F.KM_STAT_LOAD_CNT : Fld := ⟨47, 32, .rw, 0⟩
def F.KM_STAT_REJ_CNT : Fld := ⟨31, 16, .rw, 0⟩
def F.KM_STAT_REJ : Fld := ⟨0, 0, .w1c, 0⟩
-- 16 Table 16-9, DBG_STAT
def F.DBG_STAT_TV : Fld := ⟨63, 63, .ro, 0⟩
def F.DBG_STAT_SCOPE : Fld := ⟨55, 48, .ro, 0⟩
def F.DBG_STAT_READS : Fld := ⟨31, 0, .ro, 0⟩
-- 17 Table 17-10, FW_STAT
def F.FW_STAT_STAGE : Fld := ⟨31, 28, .ro, 1⟩
def F.FW_STAT_IMAGE : Fld := ⟨27, 27, .ro, 0⟩
def F.FW_STAT_TRIAL : Fld := ⟨26, 26, .ro, 0⟩
def F.FW_STAT_TRIES : Fld := ⟨25, 24, .ro, 0⟩
def F.FW_STAT_ROLLBK : Fld := ⟨23, 23, .ro, 0⟩
def F.FW_STAT_FWREJ : Fld := ⟨22, 22, .w1c, 0⟩
def F.FW_STAT_CFG_REJ : Fld := ⟨21, 21, .w1c, 0⟩
-- 17 Table 17-10, MGMT_STAT
def F.MGMT_STAT_BADMSG_CNT : Fld := ⟨63, 48, .rw, 0⟩
def F.MGMT_STAT_QOCC : Fld := ⟨47, 32, .ro, 0⟩
def F.MGMT_STAT_MSG_CNT : Fld := ⟨31, 0, .rw, 0⟩
-- 17 Table 17-10, FUNNEL_STAT
def F.FUNNEL_STAT_CASE_CNT : Fld := ⟨63, 32, .ro, 0⟩
def F.FUNNEL_STAT_DROP_CNT : Fld := ⟨31, 16, .rw, 0⟩
def F.FUNNEL_STAT_OPEN : Fld := ⟨6, 0, .ro, 0⟩
-- 17 Table 17-10, POLICY
def F.POLICY_AUTOKILL : Fld := ⟨7, 0, .rw, 0⟩
-- 17 Table 17-10, THERM_CFG
def F.THERM_CFG_TEMERG : Fld := ⟨31, 24, .rw, 112⟩
def F.THERM_CFG_TLIM : Fld := ⟨15, 8, .rw, 95⟩
def F.THERM_CFG_HYST : Fld := ⟨7, 0, .rw, 5⟩
-- 17 Table 17-10, PWR_CFG
def F.PWR_CFG_PKG_LIM : Fld := ⟨12, 0, .rw, 4000⟩
-- 17 Table 17-10, DOM_REQ
def F.DOM_REQ_M : Fld := ⟨6, 0, .rw, 64⟩
-- 17 Table 17-10, DOM_CAP
def F.DOM_CAP_M : Fld := ⟨6, 0, .ro, 64⟩
-- 17 Table 17-10, LIFE_SEL
def F.LIFE_SEL_SEL : Fld := ⟨11, 0, .rw, 0⟩
-- 17 Table 17-10, LIFE_DATA
def F.LIFE_DATA_VALUE : Fld := ⟨63, 0, .ro, 0⟩
-- 18 Table 18-10, PWR_STAT
def F.PWR_STAT_TTRIP : Fld := ⟨31, 31, .w1c, 0⟩
def F.PWR_STAT_ORDER : Fld := ⟨30, 30, .w1c, 0⟩
def F.PWR_STAT_UVRST : Fld := ⟨29, 29, .w1c, 0⟩
def F.PWR_STAT_CLKRST : Fld := ⟨28, 28, .w1c, 0⟩
def F.PWR_STAT_RAIL : Fld := ⟨27, 24, .ro, 0⟩
def F.PWR_STAT_CFG_REJ : Fld := ⟨23, 23, .w1c, 0⟩
def F.PWR_STAT_GOOD : Fld := ⟨6, 0, .ro, 0⟩
-- 18 Table 18-10, REG_PWR
def F.REG_PWR_STATE : Fld := ⟨3, 2, .ro, 0⟩
def F.REG_PWR_SLEEP : Fld := ⟨1, 1, .wo, 0⟩
def F.REG_PWR_WAKE : Fld := ⟨0, 0, .wo, 0⟩
-- 18 Table 18-10, AVS_SET
def F.AVS_SET_MV : Fld := ⟨9, 0, .rw, 800⟩
-- 18 Table 18-10, AVS_STAT
def F.AVS_STAT_MEAS_MV : Fld := ⟨63, 48, .ro, 0⟩
def F.AVS_STAT_AMPS : Fld := ⟨47, 32, .ro, 0⟩
def F.AVS_STAT_ERR_CNT : Fld := ⟨31, 16, .rw, 0⟩
def F.AVS_STAT_ERR : Fld := ⟨0, 0, .w1c, 0⟩
-- 18 Table 18-11, FRZ_CFG
def F.FRZ_CFG_FULL : Fld := ⟨8, 8, .rw, 0⟩
def F.FRZ_CFG_PROP : Fld := ⟨7, 7, .rw, 0⟩
def F.FRZ_CFG_FOLLOW : Fld := ⟨6, 6, .rw, 0⟩
def F.FRZ_CFG_DRV : Fld := ⟨5, 5, .rw, 0⟩
def F.FRZ_CFG_WT : Fld := ⟨4, 4, .rw, 0⟩
def F.FRZ_CFG_GAUGE : Fld := ⟨3, 3, .rw, 0⟩
def F.FRZ_CFG_FAULT : Fld := ⟨2, 2, .rw, 0⟩
def F.FRZ_CFG_PIN : Fld := ⟨1, 1, .rw, 0⟩
-- 18 Table 18-11, FRZ_FCLS
def F.FRZ_FCLS_MASK : Fld := ⟨15, 8, .rw, 0⟩
def F.FRZ_FCLS_CLASS : Fld := ⟨7, 0, .rw, 0⟩
-- 18 Table 18-11, FRZ_GAUGE
def F.FRZ_GAUGE_THR : Fld := ⟨63, 32, .rw, 0⟩
def F.FRZ_GAUGE_TILE : Fld := ⟨26, 16, .rw, 0⟩
def F.FRZ_GAUGE_G : Fld := ⟨3, 0, .rw, 0⟩
-- 18 Table 18-11, FRZ_TWT
def F.FRZ_TWT_NS : Fld := ⟨63, 0, .rw, 0⟩
-- 18 Table 18-11, FRZ_RWT
def F.FRZ_RWT_NS : Fld := ⟨63, 0, .rw, 0⟩
-- 18 Table 18-11, FRZ_CTL
def F.FRZ_CTL_RWTEN : Fld := ⟨2, 2, .rw, 0⟩
def F.FRZ_CTL_THAW : Fld := ⟨1, 1, .wo, 0⟩
def F.FRZ_CTL_FREEZE : Fld := ⟨0, 0, .wo, 0⟩
-- 18 Table 18-11, FRZ_CNT
def F.FRZ_CNT_CNT : Fld := ⟨15, 0, .ro, 0⟩
-- 18 Table 18-11, FRZ_STAT
def F.FRZ_STAT_NO : Fld := ⟨63, 32, .ro, 0⟩
def F.FRZ_STAT_STATE : Fld := ⟨31, 29, .ro, 0⟩
def F.FRZ_STAT_SRC : Fld := ⟨28, 25, .ro, 0⟩
def F.FRZ_STAT_HOSTREF : Fld := ⟨24, 9, .rw, 0⟩
def F.FRZ_STAT_IGN_CNT : Fld := ⟨8, 1, .rw, 0⟩
def F.FRZ_STAT_THREJ : Fld := ⟨0, 0, .w1c, 0⟩
-- 18 Table 18-11, FRZ_WT
def F.FRZ_WT_NS : Fld := ⟨63, 0, .ro, 0⟩
-- 18 Table 18-11, FRZ_FC
def F.FRZ_FC_F : Fld := ⟨47, 0, .ro, 0⟩

/-- The registers the spec names. -/
inductive Reg where
  | CAPS_ID | CAPS_GRID | CAPS_PAD | CAPS_ACC | CAPS_RINGS | CAPS_QUEUES | CAPS_HOP | CAPS_TOWER | CAPS_GUN 
  | CAPS_MXE | CAPS_VXE | CAPS_FORMATS | CAPS_FREQ | CAPS_APPLIED_OFS | CAPS_REGIONS | CAPS_DEVID | TWR_CAP 
  | PAD_PHASE | PAD_ERR | PAD_CNT | CODE_CTL | CODE_A | CODE_B | THR_BND | RING_CFG | RING_PTR | RING_GAUGE 
  | RING_HREL | RING_STAT | TWR_CFG | TWR_ERR | TWR_CE_LAST | TWR_CE_CNT | TWR_CNT | TWR_SCRUB | TWR_INJ | CORE_FLT 
  | CORE_CNT | GWDOG | QSTAT | THR_CTL | THR_STAT | GAUGE | MXE_FLT | MXE_CNT | MXE_STAT | MXE_ROWS | MXE_GATED 
  | VXE_FLT | VXE_CNT | VXE_STAT | FTR_PTR | VXE_DIG_LO | VXE_DIG_HI | VXE_DIGCNT | GUN_CHAN | GUN_STAT | GUN_LAST 
  | GUN_LIM | GUN_CTL | SEG_STAT | SEG_FLT | SEG_CTL | EXP_ERR | EXP_CNT | EXP_STAT | GUN_VCFG | REG_CLK | DOM_CFG 
  | DOM_STAT | HALF_CFG | HALF_STAT | SEAM_CFG | SEAM_STAT | TB_NOW | TB_FRAC | TB_CTL | TB_STAT | TB_PPS | TB_SET 
  | CAL | TB_ASYM | XFE_FLT | XFE_CNT | PORT_CFG | PORT_STAT | PORT_PEER | PORT_ERR | PORT_WIN | PORT_CNT 
  | PORT_CRED | PORT_CTL | PATH_CFG | PATH_STAT | LINK_ID | HUB_CNT | PEERTAB | EP_ID | EP_SH | EP_RANGE | EP_DIG 
  | EP_CFG | EP_CTL | EP_STAT | EP_ADMIT | HEAT_IN | EP_DONE | HEAT_TBL | HEAT_CTL | HEAT_QRY | HEAT_EST | HEAT_SEL 
  | HEAT_CAND | HEAT_CNT | SLOW_BASE | SLOW_LIM | ORD_CFG | SLOW_CNT | BAT_STAT | BAT_CNT | PACK_CFG | PACK_CNT 
  | PACK_ERR | DET_CFG | RCPT_CFG | RCPT_SEQ | RCPT_UPD | RCPT_STAT | RCPT_PROG | RCPT_HEAD | POLDER_CFG 
  | POLDER_STAT | POLDER_WT | POLDER_CTL | DIKE_STAT | COMMIT_CTL | COMMIT_AT | COMMIT_STAT | COMMIT_WT | METER_CFG 
  | METER_IDLE | MTR | HOST_ID | HOST_CFG | HOST_STAT | UIO_STAT | UIO_TGT | SESS | MB_STAT | MB_EVREL | MB_CNT 
  | KEY_BIND | KEY_STAT | LC_STAT | KM_STAT | DBG_STAT | FW_STAT | MGMT_STAT | FUNNEL_STAT | POLICY | THERM_CFG 
  | PWR_CFG | DOM_REQ | DOM_CAP | LIFE_SEL | LIFE_DATA | PWR_STAT | REG_PWR | AVS_SET | AVS_STAT | FRZ_CFG 
  | FRZ_FCLS | FRZ_GAUGE | FRZ_TWT | FRZ_RWT | FRZ_CTL | FRZ_CNT | FRZ_STAT | FRZ_WT | FRZ_FC
  deriving DecidableEq, Repr

/-- Every register's home, width and fields: Tables 2-5, 3-4, 4-15, 5-13, 6-9, 7-8, 8-6, 9-6, 10-13, 11-12, 12-5, 13-5, 14-8,
15-9, 16-8, 17-9, 18-9 at the bases of Tables 19-1 and 19-2; the values of the CAPS registers are Table 19-3's. -/
def Reg.info : Reg → RegInfo
  | .CAPS_ID => ⟨false, 0x0, [], true, [⟨63, 0, .ro, 0x4000B10100000000⟩]⟩
  | .CAPS_GRID => ⟨false, 0x8, [], true, [⟨63, 0, .ro, 0x18863018⟩]⟩
  | .CAPS_PAD => ⟨false, 0x10, [], true, [⟨63, 0, .ro, 0x40000040400406⟩]⟩
  | .CAPS_ACC => ⟨false, 0x18, [], true, [⟨63, 0, .ro, 0x10000080⟩]⟩
  | .CAPS_RINGS => ⟨false, 0x20, [], true, [⟨63, 0, .ro, 0x20000020020080⟩]⟩
  | .CAPS_QUEUES => ⟨false, 0x28, [], true, [⟨63, 0, .ro, 0x101010202008⟩]⟩
  | .CAPS_HOP => ⟨false, 0x30, [], true, [⟨63, 0, .ro, 0x204060C⟩]⟩
  | .CAPS_TOWER => ⟨false, 0x38, [], true, [⟨63, 0, .ro, 0x3018100F80⟩]⟩
  | .CAPS_GUN => ⟨false, 0x40, [], true, [⟨63, 0, .ro, 0x40304010FFD02012⟩]⟩
  | .CAPS_MXE => ⟨false, 0x48, [], true, [⟨63, 0, .ro, 0x440200D20FFFFFF⟩]⟩
  | .CAPS_VXE => ⟨false, 0x50, [], true, [⟨63, 0, .ro, 0x8020081001FFFFFF⟩]⟩
  | .CAPS_FORMATS => ⟨false, 0x58, [], true, [⟨63, 0, .ro, 0xFFE7FFF⟩]⟩
  | .CAPS_FREQ => ⟨false, 0x60, [], true, [⟨63, 0, .ro, 0x6D61340⟩]⟩
  | .CAPS_APPLIED_OFS => ⟨false, 0x68, [], true, [⟨63, 0, .ro, 0x1000000⟩]⟩
  | .CAPS_REGIONS => ⟨false, 0x70, [], true, [⟨63, 0, .ro, 0xFFFFFF⟩]⟩
  | .CAPS_DEVID => ⟨false, 0x78, [], true, [⟨63, 0, .ro, 0x0⟩]⟩
  | .TWR_CAP => ⟨false, 0x80, [(8, 24)], true, [⟨63, 32, .ro, 0x6000000⟩, ⟨2, 0, .ro, 4⟩]⟩
  | .PAD_PHASE => ⟨true, 0x0, [], false,
      [F.PAD_PHASE_PHASE]⟩
  | .PAD_ERR => ⟨true, 0x8, [], true,
      [F.PAD_ERR_LINE, F.PAD_ERR_UNIT, F.PAD_ERR_THREAD, F.PAD_ERR_SLIP, F.PAD_ERR_SVC_REJ, F.PAD_ERR_CFG_REJ, F.PAD_ERR_LIVE, F.PAD_ERR_BOUNDS, F.PAD_ERR_ACC_CRC, F.PAD_ERR_CRC]⟩
  | .PAD_CNT => ⟨true, 0x10, [], true,
      [F.PAD_CNT_CRC_CNT, F.PAD_CNT_SLIP_CNT, F.PAD_CNT_SVC_REJ_CNT, F.PAD_CNT_ACC_CRC_CNT]⟩
  | .CODE_CTL => ⟨true, 0x18, [], false,
      [F.CODE_CTL_ALL_HALTED, F.CODE_CTL_ACTIVE]⟩
  | .CODE_A => ⟨true, 0x20, [], false,
      [F.CODE_A_BASE, F.CODE_A_SIZE]⟩
  | .CODE_B => ⟨true, 0x24, [], false,
      [F.CODE_B_BASE, F.CODE_B_SIZE]⟩
  | .THR_BND => ⟨true, 0x100, [(0x8, 16)], true,
      [F.THR_BND_EN, F.THR_BND_LIMIT, F.THR_BND_BASE]⟩
  | .RING_CFG => ⟨true, 0x400, [(0x20, 32)], true,
      [F.RING_CFG_EN, F.RING_CFG_EDGE, F.RING_CFG_HOSTR, F.RING_CFG_HOSTW, F.RING_CFG_CONS, F.RING_CFG_PROD, F.RING_CFG_FMT, F.RING_CFG_ESZ, F.RING_CFG_SIZE, F.RING_CFG_BASE]⟩
  | .RING_PTR => ⟨true, 0x408, [(0x20, 32)], true,
      [F.RING_PTR_TW, F.RING_PTR_TAIL, F.RING_PTR_HW, F.RING_PTR_HEAD]⟩
  | .RING_GAUGE => ⟨true, 0x410, [(0x20, 32)], false,
      [F.RING_GAUGE_PEN, F.RING_GAUGE_PG, F.RING_GAUGE_CEN, F.RING_GAUGE_CG]⟩
  | .RING_HREL => ⟨true, 0x414, [(0x20, 32)], false,
      [F.RING_HREL_COUNT]⟩
  | .RING_STAT => ⟨true, 0x418, [(0x20, 32)], true,
      [F.RING_STAT_OVR_CNT, F.RING_STAT_FILL, F.RING_STAT_UND, F.RING_STAT_OVR]⟩
  | .TWR_CFG => ⟨false, 0x10000, [(0x40, 24)], false,
      [F.TWR_CFG_RET, F.TWR_CFG_PRES]⟩
  | .TWR_ERR => ⟨false, 0x10008, [(0x40, 24)], true,
      [F.TWR_ERR_BLOCK, F.TWR_ERR_HALF, F.TWR_ERR_PLAYER, F.TWR_ERR_SRC, F.TWR_ERR_TILE, F.TWR_ERR_CFG_REJ, F.TWR_ERR_UE, F.TWR_ERR_CE]⟩
  | .TWR_CE_LAST => ⟨false, 0x10010, [(0x40, 24)], true,
      [F.TWR_CE_LAST_BLOCK, F.TWR_CE_LAST_HALF, F.TWR_CE_LAST_PLAYER, F.TWR_CE_LAST_SYM]⟩
  | .TWR_CE_CNT => ⟨false, 0x10018, [(0x40, 24)], true,
      [F.TWR_CE_CNT_CE3, F.TWR_CE_CNT_CE2, F.TWR_CE_CNT_CE1, F.TWR_CE_CNT_CE0]⟩
  | .TWR_CNT => ⟨false, 0x10020, [(0x40, 24)], true,
      [F.TWR_CNT_UE_CNT, F.TWR_CNT_VSLIP_CNT, F.TWR_CNT_SCRUB_FIX_CNT]⟩
  | .TWR_SCRUB => ⟨false, 0x10028, [(0x40, 24)], true,
      [F.TWR_SCRUB_PASS, F.TWR_SCRUB_POS]⟩
  | .TWR_INJ => ⟨false, 0x10030, [(0x40, 24)], true,
      [F.TWR_INJ_BLOCK, F.TWR_INJ_HALF, F.TWR_INJ_SYMA, F.TWR_INJ_SYMB, F.TWR_INJ_TWO, F.TWR_INJ_ARM]⟩
  | .CORE_FLT => ⟨true, 0x1000, [], true,
      [F.CORE_FLT_PC, F.CORE_FLT_THREAD, F.CORE_FLT_CODE, F.CORE_FLT_G_OVF, F.CORE_FLT_PSTALL, F.CORE_FLT_WDOG, F.CORE_FLT_ILL, F.CORE_FLT_FLT]⟩
  | .CORE_CNT => ⟨true, 0x1008, [], true,
      [F.CORE_CNT_PSTALL_CNT, F.CORE_CNT_GTO_CNT, F.CORE_CNT_GOVF_CNT, F.CORE_CNT_ILL_CNT]⟩
  | .GWDOG => ⟨true, 0x1010, [], false,
      [F.GWDOG_LIMIT]⟩
  | .QSTAT => ⟨true, 0x1018, [], false,
      [F.QSTAT_MXQ, F.QSTAT_VXQ, F.QSTAT_XFQ, F.QSTAT_SDQ]⟩
  | .THR_CTL => ⟨true, 0x1100, [(0x8, 16)], true,
      [F.THR_CTL_HALT, F.THR_CTL_START, F.THR_CTL_ENTRY]⟩
  | .THR_STAT => ⟨true, 0x1200, [(0x8, 16)], true,
      [F.THR_STAT_FLIPA, F.THR_STAT_STATE, F.THR_STAT_LOOPS, F.THR_STAT_PC]⟩
  | .GAUGE => ⟨true, 0x1300, [(0x8, 16)], true,
      [F.GAUGE_ERR, F.GAUGE_VALUE]⟩
  | .MXE_FLT => ⟨true, 0x2000, [], true,
      [F.MXE_FLT_THREAD, F.MXE_FLT_OPC, F.MXE_FLT_CODE, F.MXE_FLT_SPARSE, F.MXE_FLT_PCRC, F.MXE_FLT_ACRC, F.MXE_FLT_OVR, F.MXE_FLT_FMT, F.MXE_FLT_BND, F.MXE_FLT_ILL]⟩
  | .MXE_CNT => ⟨true, 0x2008, [], true,
      [F.MXE_CNT_CMD_CNT, F.MXE_CNT_FLT_CNT]⟩
  | .MXE_STAT => ⟨true, 0x2010, [], false,
      [F.MXE_STAT_P1FMT, F.MXE_STAT_P1SP, F.MXE_STAT_P0FMT, F.MXE_STAT_P0SP, F.MXE_STAT_LBUSY, F.MXE_STAT_SBUSY, F.MXE_STAT_FTR_OCC]⟩
  | .MXE_ROWS => ⟨true, 0x2018, [], true,
      [F.MXE_ROWS_ROWS]⟩
  | .MXE_GATED => ⟨true, 0x2020, [], true,
      [F.MXE_GATED_GATED]⟩
  | .VXE_FLT => ⟨true, 0x3000, [], true,
      [F.VXE_FLT_THREAD, F.VXE_FLT_OP, F.VXE_FLT_CODE, F.VXE_FLT_LIVE, F.VXE_FLT_PCRC, F.VXE_FLT_UND, F.VXE_FLT_OVR, F.VXE_FLT_FMT, F.VXE_FLT_BND, F.VXE_FLT_ILL]⟩
  | .VXE_CNT => ⟨true, 0x3008, [], true,
      [F.VXE_CNT_CMD_CNT, F.VXE_CNT_FLT_CNT, F.VXE_CNT_RUPD_SKIP]⟩
  | .VXE_STAT => ⟨true, 0x3010, [], false,
      [F.VXE_STAT_DIGO, F.VXE_STAT_BUSY]⟩
  | .FTR_PTR => ⟨true, 0x3018, [], true,
      [F.FTR_PTR_TW, F.FTR_PTR_TAIL, F.FTR_PTR_HW, F.FTR_PTR_HEAD]⟩
  | .VXE_DIG_LO => ⟨true, 0x3020, [], true,
      [F.VXE_DIG_LO_DIG_LO]⟩
  | .VXE_DIG_HI => ⟨true, 0x3028, [], true,
      [F.VXE_DIG_HI_DIG_HI]⟩
  | .VXE_DIGCNT => ⟨true, 0x3030, [], true,
      [F.VXE_DIGCNT_TILES]⟩
  | .GUN_CHAN => ⟨false, 0x20000, [(0x20, 64)], true,
      [F.GUN_CHAN_EN, F.GUN_CHAN_RERUN, F.GUN_CHAN_UTA, F.GUN_CHAN_PHASE, F.GUN_CHAN_LEAD, F.GUN_CHAN_POLDER, F.GUN_CHAN_EXPECT, F.GUN_CHAN_RMASK]⟩
  | .GUN_STAT => ⟨false, 0x20008, [(0x20, 64)], true,
      [F.GUN_STAT_STATE, F.GUN_STAT_RETRY, F.GUN_STAT_COUNT, F.GUN_STAT_MISS, F.GUN_STAT_ABORT_CNT, F.GUN_STAT_STRAY, F.GUN_STAT_UNT, F.GUN_STAT_CFG_REJ, F.GUN_STAT_ERR, F.GUN_STAT_TMO]⟩
  | .GUN_LAST => ⟨false, 0x20010, [(0x20, 64)], true,
      [F.GUN_LAST_VERDICT, F.GUN_LAST_N]⟩
  | .GUN_LIM => ⟨false, 0x20018, [(0x20, 64)], false,
      [F.GUN_LIM_LIMIT]⟩
  | .GUN_CTL => ⟨false, 0x2001C, [(0x20, 64)], false,
      [F.GUN_CTL_RECOUNT, F.GUN_CTL_GO, F.GUN_CTL_ABORT]⟩
  | .SEG_STAT => ⟨true, 0x6000, [], true,
      [F.SEG_STAT_SEG_CNT, F.SEG_STAT_UNT, F.SEG_STAT_CKV, F.SEG_STAT_SLOT, F.SEG_STAT_VALID, F.SEG_STAT_CH]⟩
  | .SEG_FLT => ⟨true, 0x6008, [], true,
      [F.SEG_FLT_FC, F.SEG_FLT_DIR, F.SEG_FLT_CODE, F.SEG_FLT_SEC, F.SEG_FLT_LATE, F.SEG_FLT_MISS, F.SEG_FLT_COLL, F.SEG_FLT_FS]⟩
  | .SEG_CTL => ⟨true, 0x6010, [], false,
      [F.SEG_CTL_RESTORE]⟩
  | .EXP_ERR => ⟨true, 0x5000, [], true,
      [F.EXP_ERR_WLINE, F.EXP_ERR_PDECL, F.EXP_ERR_PACT, F.EXP_ERR_CAUSE, F.EXP_ERR_MM]⟩
  | .EXP_CNT => ⟨true, 0x5008, [], true,
      [F.EXP_CNT_BLK_CNT, F.EXP_CNT_MM_CNT]⟩
  | .EXP_STAT => ⟨true, 0x5010, [], false,
      [F.EXP_STAT_EBUSY, F.EXP_STAT_FIN1, F.EXP_STAT_FIN0]⟩
  | .GUN_VCFG => ⟨false, 0x30000, [(0x8, 64)], true,
      [F.GUN_VCFG_VDEF, F.GUN_VCFG_MODE, F.GUN_VCFG_LEADT, F.GUN_VCFG_VCTILE, F.GUN_VCFG_VCONF]⟩
  | .REG_CLK => ⟨false, 0x40000, [(0x8, 24)], true,
      [F.REG_CLK_LOCK, F.REG_CLK_AWAKE, F.REG_CLK_FMON, F.REG_CLK_ORIG15, F.REG_CLK_ORIG20, F.REG_CLK_SKEW, F.REG_CLK_DEFER]⟩
  | .DOM_CFG => ⟨false, 0x40100, [(0x10, 8)], false,
      [F.DOM_CFG_FSET]⟩
  | .DOM_STAT => ⟨false, 0x40108, [(0x10, 8)], true,
      [F.DOM_STAT_WAVE_CNT, F.DOM_STAT_FAPP, F.DOM_STAT_FMON, F.DOM_STAT_FHALF, F.DOM_STAT_LIM]⟩
  | .HALF_CFG => ⟨false, 0x40180, [(0x10, 2)], false,
      [F.HALF_CFG_FMAX]⟩
  | .HALF_STAT => ⟨false, 0x40188, [(0x10, 2)], true,
      [F.HALF_STAT_MV, F.HALF_STAT_FCEIL, F.HALF_STAT_FMAXA]⟩
  | .SEAM_CFG => ⟨false, 0x401A0, [], false,
      [F.SEAM_CFG_MODE]⟩
  | .SEAM_STAT => ⟨false, 0x401A8, [], true,
      [F.SEAM_STAT_SR_FLITS, F.SEAM_STAT_MODEA]⟩
  | .TB_NOW => ⟨false, 0x40200, [], true,
      [F.TB_NOW_NS]⟩
  | .TB_FRAC => ⟨false, 0x40208, [], false,
      [F.TB_FRAC_FRAC]⟩
  | .TB_CTL => ⟨false, 0x40210, [], false,
      [F.TB_CTL_STEP, F.TB_CTL_PPS_EN, F.TB_CTL_SLEWMAX, F.TB_CTL_SRC, F.TB_CTL_UPATH]⟩
  | .TB_STAT => ⟨false, 0x40218, [], true,
      [F.TB_STAT_OFFSET, F.TB_STAT_DELAY, F.TB_STAT_SRCA, F.TB_STAT_LOCK, F.TB_STAT_STEPREJ, F.TB_STAT_STEPPED]⟩
  | .TB_PPS => ⟨false, 0x40220, [], true,
      [F.TB_PPS_NS]⟩
  | .TB_SET => ⟨false, 0x40228, [], true,
      [F.TB_SET_NS]⟩
  | .CAL => ⟨false, 0x40230, [], true,
      [F.CAL_SEC]⟩
  | .TB_ASYM => ⟨false, 0x40240, [(0x4, 16)], false,
      [F.TB_ASYM_ASYM]⟩
  | .XFE_FLT => ⟨true, 0x4000, [], true,
      [F.XFE_FLT_THREAD, F.XFE_FLT_OPC, F.XFE_FLT_CODE, F.XFE_FLT_LIVE, F.XFE_FLT_TUE, F.XFE_FLT_ACRC, F.XFE_FLT_PCRC, F.XFE_FLT_BND, F.XFE_FLT_ILL]⟩
  | .XFE_CNT => ⟨true, 0x4008, [], true,
      [F.XFE_CNT_CMD_CNT, F.XFE_CNT_FLT_CNT, F.XFE_CNT_ISKIP_CNT]⟩
  | .PORT_CFG => ⟨false, 0x50000, [(0x100, 16)], false,
      [F.PORT_CFG_WIDTH, F.PORT_CFG_EN]⟩
  | .PORT_STAT => ⟨false, 0x50008, [(0x100, 16)], true,
      [F.PORT_STAT_PEERID, F.PORT_STAT_DOWNS24, F.PORT_STAT_STATE, F.PORT_STAT_WIDTHA, F.PORT_STAT_FAILS, F.PORT_STAT_DEG, F.PORT_STAT_CREDLOW, F.PORT_STAT_PDN_CNT]⟩
  | .PORT_PEER => ⟨false, 0x50010, [(0x100, 16)], true,
      [F.PORT_PEER_DEVID]⟩
  | .PORT_ERR => ⟨false, 0x50018, [(0x100, 16)], false,
      [F.PORT_ERR_CAUSE, F.PORT_ERR_PEERMM, F.PORT_ERR_RET, F.PORT_ERR_WREJ, F.PORT_ERR_DOWN, F.PORT_ERR_DEG, F.PORT_ERR_CREDLOW, F.PORT_ERR_CRC, F.PORT_ERR_GAP]⟩
  | .PORT_WIN => ⟨false, 0x50020, [(0x100, 16)], true,
      [F.PORT_WIN_RPL, F.PORT_WIN_CRCE, F.PORT_WIN_FECU]⟩
  | .PORT_CNT => ⟨false, 0x50028, [(0x100, 16)], true,
      [F.PORT_CNT_RPL_TOT, F.PORT_CNT_RETRAINS, F.PORT_CNT_DUP_CNT]⟩
  | .PORT_CRED => ⟨false, 0x50030, [(0x100, 16)], true,
      [F.PORT_CRED_CLS, F.PORT_CRED_WMAX, F.PORT_CRED_ADV]⟩
  | .PORT_CTL => ⟨false, 0x50038, [(0x100, 16)], false,
      [F.PORT_CTL_RETRAIN, F.PORT_CTL_DOWN]⟩
  | .PATH_CFG => ⟨false, 0x51000, [(0x10, 32)], true,
      [F.PATH_CFG_EN, F.PATH_CFG_GRACE, F.PATH_CFG_POLDERS, F.PATH_CFG_PORTS, F.PATH_CFG_PEER]⟩
  | .PATH_STAT => ⟨false, 0x51008, [(0x10, 32)], true,
      [F.PATH_STAT_STATE, F.PATH_STAT_USABLE, F.PATH_STAT_GEXP_CNT, F.PATH_STAT_FLUSH_CNT]⟩
  | .LINK_ID => ⟨false, 0x51400, [], true,
      [F.LINK_ID_PEERID]⟩
  | .HUB_CNT => ⟨false, 0x51800, [(0x8, 16)], true,
      [F.HUB_CNT_TENANT_DROP_CNT, F.HUB_CNT_SLV_CNT, F.HUB_CNT_OVR_CNT, F.HUB_CNT_BADREQ_CNT]⟩
  | .PEERTAB => ⟨false, 0x52000, [(0x400, 8), (0x4, 256)], false,
      [F.PEERTAB_V, F.PEERTAB_PEERID]⟩
  | .EP_ID => ⟨false, 0x60000, [(0x400, 8), (0x80, 4)], true,
      [F.EP_ID_JOB, F.EP_ID_EPOCH]⟩
  | .EP_SH => ⟨false, 0x60008, [(0x400, 8), (0x80, 4)], true,
      [F.EP_SH_STATE, F.EP_SH_VCNT, F.EP_SH_NCOM, F.EP_SH_NBAT, F.EP_SH_LV, F.EP_SH_FV, F.EP_SH_SHARD]⟩
  | .EP_RANGE => ⟨false, 0x60010, [(0x400, 8), (0x80, 4)], true,
      [F.EP_RANGE_LAST_B, F.EP_RANGE_FIRST_B]⟩
  | .EP_DIG => ⟨false, 0x60018, [(0x400, 8), (0x80, 4), (0x8, 8)], true,
      [F.EP_DIG_DIG]⟩
  | .EP_CFG => ⟨false, 0x60200, [(0x400, 8)], false,
      [F.EP_CFG_ADM, F.EP_CFG_REJ, F.EP_CFG_RET, F.EP_CFG_ATILE]⟩
  | .EP_CTL => ⟨false, 0x60208, [(0x400, 8)], true,
      [F.EP_CTL_ARG, F.EP_CTL_SLOT, F.EP_CTL_OP]⟩
  | .EP_STAT => ⟨false, 0x60210, [(0x400, 8)], true,
      [F.EP_STAT_NEXT_B, F.EP_STAT_DONE_B]⟩
  | .EP_ADMIT => ⟨true, 0x7000, [], true,
      [F.EP_ADMIT_BATCH, F.EP_ADMIT_EPOCH]⟩
  | .HEAT_IN => ⟨true, 0x7008, [], true,
      [F.HEAT_IN_SLOW, F.HEAT_IN_TABLE, F.HEAT_IN_ROW]⟩
  | .EP_DONE => ⟨true, 0x7010, [], false,
      [F.EP_DONE_BATCH]⟩
  | .HEAT_TBL => ⟨false, 0x70000, [(0x8, 64)], true,
      [F.HEAT_TBL_EN, F.HEAT_TBL_RETIER, F.HEAT_TBL_POLDER, F.HEAT_TBL_TABLE, F.HEAT_TBL_DECAY, F.HEAT_TBL_MOVEMAX, F.HEAT_TBL_PROMO]⟩
  | .HEAT_CTL => ⟨false, 0x70200, [], false,
      [F.HEAT_CTL_SK, F.HEAT_CTL_TAKE, F.HEAT_CTL_CLEAR, F.HEAT_CTL_HALVE]⟩
  | .HEAT_QRY => ⟨false, 0x70208, [], true,
      [F.HEAT_QRY_SK, F.HEAT_QRY_ROW]⟩
  | .HEAT_EST => ⟨false, 0x70210, [], false,
      [F.HEAT_EST_VALID, F.HEAT_EST_EST]⟩
  | .HEAT_SEL => ⟨false, 0x70218, [], false,
      [F.HEAT_SEL_SK, F.HEAT_SEL_ENTRY]⟩
  | .HEAT_CAND => ⟨false, 0x70220, [], true,
      [F.HEAT_CAND_V, F.HEAT_CAND_EST, F.HEAT_CAND_ROW]⟩
  | .HEAT_CNT => ⟨false, 0x70228, [], true,
      [F.HEAT_CNT_IN_CNT, F.HEAT_CNT_DROP_CNT]⟩
  | .SLOW_BASE => ⟨false, 0x80000, [(0x20, 8)], true,
      [F.SLOW_BASE_BASE]⟩
  | .SLOW_LIM => ⟨false, 0x80008, [(0x20, 8)], true,
      [F.SLOW_LIM_LINES]⟩
  | .ORD_CFG => ⟨false, 0x80010, [(0x20, 8)], false,
      [F.ORD_CFG_EN, F.ORD_CFG_TILE, F.ORD_CFG_RING]⟩
  | .SLOW_CNT => ⟨false, 0x80018, [(0x20, 8)], true,
      [F.SLOW_CNT_BADREQ_CNT, F.SLOW_CNT_UIOERR_CNT, F.SLOW_CNT_REQ_CNT]⟩
  | .BAT_STAT => ⟨false, 0x90000, [(0x10, 17)], true,
      [F.BAT_STAT_CAUSE, F.BAT_STAT_CTX, F.BAT_STAT_INDEX, F.BAT_STAT_TENANT, F.BAT_STAT_REJ]⟩
  | .BAT_CNT => ⟨false, 0x90008, [(0x10, 17)], true,
      [F.BAT_CNT_OK_CNT, F.BAT_CNT_REJ_CNT]⟩
  | .PACK_CFG => ⟨false, 0xA0000, [(0x8, 32)], false,
      [F.PACK_CFG_RX4, F.PACK_CFG_RX3, F.PACK_CFG_TX4, F.PACK_CFG_TX3]⟩
  | .PACK_CNT => ⟨false, 0xA0100, [(0x8, 16)], true,
      [F.PACK_CNT_BLK_TX, F.PACK_CNT_BLK_RX, F.PACK_CNT_NONFIN_CNT, F.PACK_CNT_FMT_CNT]⟩
  | .PACK_ERR => ⟨false, 0xA0180, [(0x8, 16)], true,
      [F.PACK_ERR_BIDX, F.PACK_ERR_CAUSE, F.PACK_ERR_PATH, F.PACK_ERR_FE]⟩
  | .DET_CFG => ⟨false, 0xB0000, [(0x100, 8)], false,
      [F.DET_CFG_DET]⟩
  | .RCPT_CFG => ⟨false, 0xB0008, [(0x100, 8)], false,
      [F.RCPT_CFG_EN, F.RCPT_CFG_TILE, F.RCPT_CFG_RING]⟩
  | .RCPT_SEQ => ⟨false, 0xB0010, [(0x100, 8)], true,
      [F.RCPT_SEQ_SEQ]⟩
  | .RCPT_UPD => ⟨false, 0xB0018, [(0x100, 8)], true,
      [F.RCPT_UPD_UPD]⟩
  | .RCPT_STAT => ⟨false, 0xB0020, [(0x100, 8)], true,
      [F.RCPT_STAT_REJ_CNT, F.RCPT_STAT_CAUSE, F.RCPT_STAT_CFG_REJ, F.RCPT_STAT_REJ]⟩
  | .RCPT_PROG => ⟨false, 0xB0040, [(0x100, 8), (0x8, 4)], true,
      [F.RCPT_PROG_DIG]⟩
  | .RCPT_HEAD => ⟨false, 0xB0060, [(0x100, 8), (0x8, 4)], true,
      [F.RCPT_HEAD_DIG]⟩
  | .POLDER_CFG => ⟨false, 0xC0000, [(0x20, 8)], true,
      [F.POLDER_CFG_TENANT, F.POLDER_CFG_RMASK]⟩
  | .POLDER_STAT => ⟨false, 0xC0008, [(0x20, 8)], true,
      [F.POLDER_STAT_STATE, F.POLDER_STAT_CFG_REJ, F.POLDER_STAT_WDONE, F.POLDER_STAT_WFAIL]⟩
  | .POLDER_WT => ⟨false, 0xC0010, [(0x20, 8)], true,
      [F.POLDER_WT_NS]⟩
  | .POLDER_CTL => ⟨false, 0xC0018, [(0x20, 8)], false,
      [F.POLDER_CTL_FINISH, F.POLDER_CTL_KILL, F.POLDER_CTL_START]⟩
  | .DIKE_STAT => ⟨false, 0xC0100, [], true,
      [F.DIKE_STAT_SVC_DROP, F.DIKE_STAT_BAR2_ABORT]⟩
  | .COMMIT_CTL => ⟨false, 0xD0000, [], false,
      [F.COMMIT_CTL_GO, F.COMMIT_CTL_ABORT, F.COMMIT_CTL_AT_GUN, F.COMMIT_CTL_CH]⟩
  | .COMMIT_AT => ⟨false, 0xD0008, [], true,
      [F.COMMIT_AT_NS]⟩
  | .COMMIT_STAT => ⟨false, 0xD0010, [], true,
      [F.COMMIT_STAT_STATE, F.COMMIT_STAT_CODE, F.COMMIT_STAT_ITEM, F.COMMIT_STAT_LATE, F.COMMIT_STAT_CFG_REJ, F.COMMIT_STAT_REJ]⟩
  | .COMMIT_WT => ⟨false, 0xD0018, [], true,
      [F.COMMIT_WT_NS]⟩
  | .METER_CFG => ⟨false, 0xE0000, [], false,
      [F.METER_CFG_INTERVAL]⟩
  | .METER_IDLE => ⟨false, 0xE0008, [], true,
      [F.METER_IDLE_UJ]⟩
  | .MTR => ⟨false, 0xE0100, [(0x100, 8), (0x8, 16)], true,
      [F.MTR_VALUE]⟩
  | .HOST_ID => ⟨false, 0xF0000, [], true,
      [F.HOST_ID_IFMAJ, F.HOST_ID_IFMIN]⟩
  | .HOST_CFG => ⟨false, 0xF0008, [], false,
      [F.HOST_CFG_BIF]⟩
  | .HOST_STAT => ⟨false, 0xF0010, [], true,
      [F.HOST_STAT_WIDTH, F.HOST_STAT_SPEED, F.HOST_STAT_UR_CNT, F.HOST_STAT_CA_CNT, F.HOST_STAT_HOST_DENY]⟩
  | .UIO_STAT => ⟨false, 0xF0018, [], true,
      [F.UIO_STAT_TMO_CNT, F.UIO_STAT_OUT]⟩
  | .UIO_TGT => ⟨false, 0xF0100, [(0x8, 8)], true,
      [F.UIO_TGT_EN, F.UIO_TGT_IDE, F.UIO_TGT_STREAM, F.UIO_TGT_DPID]⟩
  | .SESS => ⟨false, 0xF0200, [(0x8, 16)], true,
      [F.SESS_STATE, F.SESS_KIND, F.SESS_TENANT, F.SESS_REQID, F.SESS_IFMAJ, F.SESS_IFMIN]⟩
  | .MB_STAT => ⟨false, 0x200F000, [(0x10000, 16)], true,
      [F.MB_STAT_STATE, F.MB_STAT_FILL, F.MB_STAT_CTW, F.MB_STAT_CTAIL, F.MB_STAT_CHW, F.MB_STAT_CHEAD, F.MB_STAT_ETW, F.MB_STAT_ETAIL, F.MB_STAT_EHW, F.MB_STAT_EHEAD, F.MB_STAT_UND]⟩
  | .MB_EVREL => ⟨false, 0x200F008, [(0x10000, 16)], false,
      [F.MB_EVREL_COUNT]⟩
  | .MB_CNT => ⟨false, 0x200F010, [(0x10000, 16)], true,
      [F.MB_CNT_OVR_CNT, F.MB_CNT_FOREIGN]⟩
  | .KEY_BIND => ⟨false, 0x100000, [(0x10, 256)], true,
      [F.KEY_BIND_EN, F.KEY_BIND_POLDERS, F.KEY_BIND_TENANT, F.KEY_BIND_KEYID]⟩
  | .KEY_STAT => ⟨false, 0x100008, [(0x10, 256)], true,
      [F.KEY_STAT_LOADED, F.KEY_STAT_INUSE, F.KEY_STAT_TENANT, F.KEY_STAT_KEYID]⟩
  | .LC_STAT => ⟨false, 0x101000, [], false,
      [F.LC_STAT_LC, F.LC_STAT_OWNER, F.LC_STAT_OWNED, F.LC_STAT_UDSL, F.LC_STAT_SVNCNT, F.LC_STAT_ISVN]⟩
  | .KM_STAT => ⟨false, 0x101008, [], true,
      [F.KM_STAT_OBJ, F.KM_STAT_STATUS, F.KM_STAT_LOAD_CNT, F.KM_STAT_REJ_CNT, F.KM_STAT_REJ]⟩
  | .DBG_STAT => ⟨false, 0x101100, [(0x8, 8)], true,
      [F.DBG_STAT_TV, F.DBG_STAT_SCOPE, F.DBG_STAT_READS]⟩
  | .FW_STAT => ⟨false, 0x110000, [], false,
      [F.FW_STAT_STAGE, F.FW_STAT_IMAGE, F.FW_STAT_TRIAL, F.FW_STAT_TRIES, F.FW_STAT_ROLLBK, F.FW_STAT_FWREJ, F.FW_STAT_CFG_REJ]⟩
  | .MGMT_STAT => ⟨false, 0x110008, [], true,
      [F.MGMT_STAT_BADMSG_CNT, F.MGMT_STAT_QOCC, F.MGMT_STAT_MSG_CNT]⟩
  | .FUNNEL_STAT => ⟨false, 0x110010, [], true,
      [F.FUNNEL_STAT_CASE_CNT, F.FUNNEL_STAT_DROP_CNT, F.FUNNEL_STAT_OPEN]⟩
  | .POLICY => ⟨false, 0x110018, [], false,
      [F.POLICY_AUTOKILL]⟩
  | .THERM_CFG => ⟨false, 0x110020, [], false,
      [F.THERM_CFG_TEMERG, F.THERM_CFG_TLIM, F.THERM_CFG_HYST]⟩
  | .PWR_CFG => ⟨false, 0x110028, [], false,
      [F.PWR_CFG_PKG_LIM]⟩
  | .DOM_REQ => ⟨false, 0x110040, [(0x4, 8)], false,
      [F.DOM_REQ_M]⟩
  | .DOM_CAP => ⟨false, 0x110060, [(0x4, 8)], false,
      [F.DOM_CAP_M]⟩
  | .LIFE_SEL => ⟨false, 0x110080, [], false,
      [F.LIFE_SEL_SEL]⟩
  | .LIFE_DATA => ⟨false, 0x110088, [], true,
      [F.LIFE_DATA_VALUE]⟩
  | .PWR_STAT => ⟨false, 0x120000, [], false,
      [F.PWR_STAT_TTRIP, F.PWR_STAT_ORDER, F.PWR_STAT_UVRST, F.PWR_STAT_CLKRST, F.PWR_STAT_RAIL, F.PWR_STAT_CFG_REJ, F.PWR_STAT_GOOD]⟩
  | .REG_PWR => ⟨false, 0x120040, [(0x4, 24)], false,
      [F.REG_PWR_STATE, F.REG_PWR_SLEEP, F.REG_PWR_WAKE]⟩
  | .AVS_SET => ⟨false, 0x120100, [(0x10, 3)], false,
      [F.AVS_SET_MV]⟩
  | .AVS_STAT => ⟨false, 0x120108, [(0x10, 3)], true,
      [F.AVS_STAT_MEAS_MV, F.AVS_STAT_AMPS, F.AVS_STAT_ERR_CNT, F.AVS_STAT_ERR]⟩
  | .FRZ_CFG => ⟨false, 0x130000, [], false,
      [F.FRZ_CFG_FULL, F.FRZ_CFG_PROP, F.FRZ_CFG_FOLLOW, F.FRZ_CFG_DRV, F.FRZ_CFG_WT, F.FRZ_CFG_GAUGE, F.FRZ_CFG_FAULT, F.FRZ_CFG_PIN]⟩
  | .FRZ_FCLS => ⟨false, 0x130008, [], false,
      [F.FRZ_FCLS_MASK, F.FRZ_FCLS_CLASS]⟩
  | .FRZ_GAUGE => ⟨false, 0x130010, [], true,
      [F.FRZ_GAUGE_THR, F.FRZ_GAUGE_TILE, F.FRZ_GAUGE_G]⟩
  | .FRZ_TWT => ⟨false, 0x130018, [], true,
      [F.FRZ_TWT_NS]⟩
  | .FRZ_RWT => ⟨false, 0x130020, [], true,
      [F.FRZ_RWT_NS]⟩
  | .FRZ_CTL => ⟨false, 0x130028, [], false,
      [F.FRZ_CTL_RWTEN, F.FRZ_CTL_THAW, F.FRZ_CTL_FREEZE]⟩
  | .FRZ_CNT => ⟨false, 0x13002C, [], false,
      [F.FRZ_CNT_CNT]⟩
  | .FRZ_STAT => ⟨false, 0x130030, [], true,
      [F.FRZ_STAT_NO, F.FRZ_STAT_STATE, F.FRZ_STAT_SRC, F.FRZ_STAT_HOSTREF, F.FRZ_STAT_IGN_CNT, F.FRZ_STAT_THREJ]⟩
  | .FRZ_WT => ⟨false, 0x130038, [], true,
      [F.FRZ_WT_NS]⟩
  | .FRZ_FC => ⟨false, 0x130040, [(0x8, 8)], true,
      [F.FRZ_FC_F]⟩

/-- Registers of BAR0 outside the tile windows, first part. -/
def Reg.chipA : List Reg :=
  [.CAPS_ID, .CAPS_GRID, .CAPS_PAD, .CAPS_ACC, .CAPS_RINGS, .CAPS_QUEUES, .CAPS_HOP, .CAPS_TOWER, .CAPS_GUN,
   .CAPS_MXE, .CAPS_VXE, .CAPS_FORMATS, .CAPS_FREQ, .CAPS_APPLIED_OFS, .CAPS_REGIONS, .CAPS_DEVID, .TWR_CAP,
   .TWR_CFG, .TWR_ERR, .TWR_CE_LAST, .TWR_CE_CNT, .TWR_CNT, .TWR_SCRUB, .TWR_INJ, .GUN_CHAN, .GUN_STAT, .GUN_LAST,
   .GUN_LIM, .GUN_CTL, .GUN_VCFG, .REG_CLK, .DOM_CFG, .DOM_STAT, .HALF_CFG, .HALF_STAT, .SEAM_CFG, .SEAM_STAT,
   .TB_NOW, .TB_FRAC, .TB_CTL, .TB_STAT, .TB_PPS, .TB_SET, .CAL, .TB_ASYM, .PORT_CFG, .PORT_STAT, .PORT_PEER,
   .PORT_ERR, .PORT_WIN, .PORT_CNT, .PORT_CRED, .PORT_CTL, .PATH_CFG, .PATH_STAT, .LINK_ID, .HUB_CNT, .PEERTAB,
   .EP_ID, .EP_SH, .EP_RANGE, .EP_DIG, .EP_CFG, .EP_CTL, .EP_STAT, .HEAT_TBL, .HEAT_CTL, .HEAT_QRY, .HEAT_EST,
   .HEAT_SEL, .HEAT_CAND, .HEAT_CNT, .SLOW_BASE, .SLOW_LIM, .ORD_CFG, .SLOW_CNT, .BAT_STAT]

/-- Registers of BAR0 outside the tile windows, second part. -/
def Reg.chipB : List Reg :=
  [.BAT_CNT, .PACK_CFG, .PACK_CNT, .PACK_ERR, .DET_CFG, .RCPT_CFG, .RCPT_SEQ, .RCPT_UPD, .RCPT_STAT, .RCPT_PROG,
   .RCPT_HEAD, .POLDER_CFG, .POLDER_STAT, .POLDER_WT, .POLDER_CTL, .DIKE_STAT, .COMMIT_CTL, .COMMIT_AT,
   .COMMIT_STAT, .COMMIT_WT, .METER_CFG, .METER_IDLE, .MTR, .HOST_ID, .HOST_CFG, .HOST_STAT, .UIO_STAT, .UIO_TGT,
   .SESS, .MB_STAT, .MB_EVREL, .MB_CNT, .KEY_BIND, .KEY_STAT, .LC_STAT, .KM_STAT, .DBG_STAT, .FW_STAT, .MGMT_STAT,
   .FUNNEL_STAT, .POLICY, .THERM_CFG, .PWR_CFG, .DOM_REQ, .DOM_CAP, .LIFE_SEL, .LIFE_DATA, .PWR_STAT, .REG_PWR,
   .AVS_SET, .AVS_STAT, .FRZ_CFG, .FRZ_FCLS, .FRZ_GAUGE, .FRZ_TWT, .FRZ_RWT, .FRZ_CTL, .FRZ_CNT, .FRZ_STAT,
   .FRZ_WT, .FRZ_FC]

/-- Registers of a tile CSR window (Table 19-2). -/
def Reg.tileAll : List Reg :=
  [.PAD_PHASE, .PAD_ERR, .PAD_CNT, .CODE_CTL, .CODE_A, .CODE_B, .THR_BND, .RING_CFG, .RING_PTR, .RING_GAUGE,
   .RING_HREL, .RING_STAT, .CORE_FLT, .CORE_CNT, .GWDOG, .QSTAT, .THR_CTL, .THR_STAT, .GAUGE, .MXE_FLT, .MXE_CNT,
   .MXE_STAT, .MXE_ROWS, .MXE_GATED, .VXE_FLT, .VXE_CNT, .VXE_STAT, .FTR_PTR, .VXE_DIG_LO, .VXE_DIG_HI,
   .VXE_DIGCNT, .SEG_STAT, .SEG_FLT, .SEG_CTL, .EXP_ERR, .EXP_CNT, .EXP_STAT, .XFE_FLT, .XFE_CNT, .EP_ADMIT,
   .HEAT_IN, .EP_DONE]

/-- The offset of an element of a register array. -/
def Reg.sumIdx : List (Nat × Nat) → List Nat → Nat
  | (s, _) :: ds, i :: is => s * i + Reg.sumIdx ds is
  | _, _ => 0

/-- The offset of register `r` at index `i` (BAR0, or within the tile's window). -/
def Reg.loc (r : Reg) (i : List Nat) : Nat := r.info.base + Reg.sumIdx r.info.dims i

/-- The indices that an offset from the array's base names, if it names an element. -/
def Reg.unIdx : List (Nat × Nat) → Nat → Option (List Nat)
  | [], 0 => some []
  | [], _ + 1 => none
  | (s, n) :: ds, o =>
    if o / s < n then (Reg.unIdx ds (o % s)).map (o / s :: ·) else none

/-- The register and indices at an offset, searched in a list of registers. -/
def Reg.find : List Reg → Nat → Option (Reg × List Nat)
  | [], _ => none
  | r :: rs, o =>
    if o < r.info.base then Reg.find rs o
    else match Reg.unIdx r.info.dims (o - r.info.base) with
      | some i => some (r, i)
      | none => Reg.find rs o

/-- The chip register at a BAR0 offset outside the tile windows. -/
def Reg.chipAt (o : Nat) : Option (Reg × List Nat) := Reg.find (Reg.chipA ++ Reg.chipB) o

/-- The tile register at an offset of a tile's CSR window. -/
def Reg.tileAt (o : Nat) : Option (Reg × List Nat) := Reg.find Reg.tileAll o

/-- Width of a field in bits. -/
def Fld.width (f : Fld) : Nat := f.hi - f.lo + 1

/-- A field's value in a register. -/
def Fld.get (f : Fld) (w : W64) : Nat := w.toNat / 2 ^ f.lo % 2 ^ f.width

/-- A register with a field replaced (the value is cut to the field's width). -/
def Fld.set (f : Fld) (w : W64) (v : Nat) : W64 :=
  BitVec.ofNat 64 (w.toNat + 2 ^ f.lo * (v % 2 ^ f.width) - 2 ^ f.lo * f.get w)

/-- A register assembled from the reset values of its fields. -/
def Reg.resetOf : List Fld → W64
  | [] => 0
  | f :: fs => f.set (Reg.resetOf fs) f.rst

/-- The reset value of a register: its fields' reset values (Table 0-2). AVS_SET gives 800 mV for VSRAM (index 0) and 750 mV
for the two VCORE rails. -/
def Reg.reset (r : Reg) (i : List Nat) : W64 :=
  match r, i with
  | .AVS_SET, 0 :: _ => 800
  | .AVS_SET, _ => 750
  | r, _ => Reg.resetOf r.info.flds

end Sys2Proof.Machine
end

