-- ==== Sys2Proof/Machine/State.lean ====
section
/-! DEFINITION. The state of the chip as plain data, the reasons a step can stop, and the state after reset. -/
namespace Sys2Proof.Machine

/-- A sparse map: keys strictly rising, no entry equal to the default of its map. -/
abbrev SMap (α : Type) := List (Nat × α)

/-- One active loop level of a thread, R82 R83, with the lines of code it holds (R81). The list of a thread holds the innermost level
first. -/
structure LoopRec where
  level : Nat
  act : Nat
  idx : Nat
  first : Nat
  last : Nat
  held : List (Nat × Bytes)
  deriving DecidableEq, Repr

/-- A queued engine command with the thread that pushed it and the fc of its push, R90. -/
structure QCmd where
  cmd : BitVec 128
  th : Nat
  pushed : Nat
  deriving DecidableEq, Repr

/-- Thread states with what each waits for, Table 4-2. -/
inductive ThrSt where
  | halted
  | run
  /-- GWAIT: destination, gauge, threshold, wall time of issue, the first fc that showed the condition with the gauge's word in that
  fc, the word of the GWAIT (R88, R89, R98). -/
  | wait (rd g thr since : Nat) (met : Option (Nat × W64)) (at_ : BitVec 15)
  /-- GAWAIT: channel, destination, fc of issue; `again` for a thread restored to its fire instant, whose GAWAIT is done (R94,
  R164, R169, R172). -/
  | gun (ch rd since : Nat) (again : Bool)
  /-- PAUSE until a fc (R102). -/
  | pause (till : Nat)
  /-- PUSH or SEND to a full queue (0 MXE, 1 VXE, 2 XFE, 3 send), since a fc (R91). -/
  | stall (q : Nat) (cmd : BitVec 128) (since : Nat)
  | fault
  deriving DecidableEq, Repr

/-- The state of a thread, Table 4-1. -/
structure Thread where
  s : SMap W64
  pc : BitVec 15
  lc : SMap W32
  loops : List LoopRec
  cmp : BitVec 4
  st : ThrSt
  fetch : List (Nat × Bytes)
  deriving DecidableEq, Repr

/-- An armed flip of the pace thread, R95: the loop level of M = 1, the target, the flip line once read, the fc its read asks for a
slot in, and the fc in which that level exited by its count. -/
structure Flip where
  level : Option Nat
  target : BitVec 15
  line : Option Bytes
  req : Nat
  due : Option Nat
  deriving DecidableEq, Repr

/-- A change that lands on a gauge in this fc, R86. -/
inductive GChange where
  | csr (g : Nat) (v : W64)
  | set (g : Nat) (v : W32)
  | add (g : Nat) (v : Nat) (e : Bool)
  deriving DecidableEq, Repr

/-- A slot taken in this fc: bank 0 to 63, or of the accumulator 64 + quarter (write port) or 68 + quarter (read port), with the line, the
unit code (which is the priority of a scheduled requester) and whether it is an instruction fetch (R26, R28, R29, R38, R81). -/
structure Claim where
  bank : Nat
  line : Nat
  unit : Nat
  fetch : Bool
  deriving DecidableEq, Repr

/-- An arm record, R93. -/
structure Arm where
  gauge : Nat
  thr : Nat
  offer : Option (BitVec 16)
  spent : Bool
  fc : Nat
  deriving DecidableEq, Repr

/-- A fire record, R164. -/
structure Fire where
  n : Nat
  verdict : BitVec 16
  taken : Bool
  deriving DecidableEq, Repr

/-- A segment checkpoint, R167: the channel and fire instant of the segment, the pace thread, the rollback rings' pointers. -/
structure Ckpt where
  ch : Nat
  n : Nat
  pace : Thread
  rings : List (Nat × W64)
  deriving DecidableEq, Repr

/-- A unit of 128 B on the scheduled plane with its destination and order bit, R174 R212. -/
structure HopUnit where
  data : Bytes
  dest : Nat
  yx : Bool
  deriving DecidableEq, Repr

/-- A fault report held until its mark is known, with the fc of its fault, R168. -/
structure HeldReport where
  rep : Report
  fc : Nat
  deriving DecidableEq, Repr

/-- An addend total of R116: the special values met and the exact sum of the finite addends, in units of 2^-320. -/
structure XSum where
  nan : Bool
  pinf : Bool
  ninf : Bool
  num : Int
  deriving DecidableEq, Repr

/-- A plane of the MXE's arrays, R107: format (0 not loaded), sparsity mode, FIN, and the lines of its areas as loaded: values,
metadata, scales (R114, R124). -/
structure Plane where
  fmt : Nat
  sp : Nat
  fin : Bool
  data : Bytes
  deriving DecidableEq, Repr

/-- A running LOADW, R124 R186: its command, its begin fc (moved on by every fc it has waited for a slot), the lines it reads as far as they
are known, the fc its load unit is busy, the lines read so far with the fc of each read, how many of them have entered the plane, whether
its header is still to be checked (R187), and the cause, P and A of a count mismatch found by the expander (R188). -/
structure LoadRun where
  q : QCmd
  b : Nat
  lines : List Nat
  busy : Nat
  got : List (Nat × Bytes)
  inn : Nat
  hdr : Bool
  mism : Option (Nat × Nat × Nat)
  deriving DecidableEq, Repr

/-- A running STREAM or DRAIN: its command, its begin fc (moved on by every fc it has waited for a slot), the rows issued, the rows
finished, the issue fc of the last row, the pad lines of the row in issue still to be read (fc, place, line) and those read by place, the
window lines of each stream (R129), the scale line read last (R126). -/
structure StreamRun where
  q : QCmd
  b : Nat
  issued : Nat
  written : Nat
  tlast : Nat
  need : List (Nat × Nat × Nat)
  got : SMap Bytes
  win : List (Bytes × Bytes)
  scale : Option (Nat × Bytes)
  deriving DecidableEq, Repr

/-- A row in flight, Table 5-6: command, issue fc, accumulator offset, activations and scales of the four streams once read, product totals
per array and column, the four old rows, and how far it is: 0 issued, 1 in the cells, 2 past the accumulator read, 3 past the write. -/
structure RowRun where
  q : QCmd
  t : Nat
  off : Nat
  acts : Option (List (Bytes × Bytes))
  sums : List (List XSum)
  old : List Bytes
  stage : Nat
  deriving DecidableEq, Repr

/-- The MXE (chapter 05): planes; running commands; rows in flight; the finished-tile ring's entries with those added and freed in
this fc; stopped (R430); the fc from which any command, a LOADW, a STREAM or DRAIN may begin (R120); per plane the fc from which a
LOADW and a STREAM may use it (conditions 5 and 6); a fault of this fc that is raised once the fc's writes have landed (R133). -/
structure Mxe where
  plane : SMap Plane
  loads : List LoadRun
  streams : List StreamRun
  rows : List RowRun
  ftr : List Bytes
  ftrAdd : Nat
  ftrFree : Nat
  stopped : Bool
  nextBegin : Nat
  loadFree : Nat
  streamFree : Nat
  idle : SMap Nat
  ready : SMap Nat
  bad : Option (QCmd × Nat)
  deriving DecidableEq, Repr

/-- A running VXE command: command, begin fc (moved on by every fc the pipeline has waited), steps issued, issue fc of the last step, the
lines already read of the step in issue. -/
structure VxeRun where
  q : QCmd
  b : Nat
  k : Nat
  t : Nat
  got : SMap Bytes
  deriving DecidableEq, Repr

/-- The VXE (chapter 06): vector registers (128 words each), mask registers m1 to m7, slot counters, digest state, running
commands, stopped, the fc from which the next command may begin, the line and thread of the first access that lost its bank in this
fc (R148). -/
structure Vxe where
  v : SMap (List W32)
  m : SMap (BitVec 128)
  cnt : SMap Nat
  digY : BitVec 128
  digN : Nat
  digOpen : Bool
  run : List VxeRun
  stopped : Bool
  free : Nat
  lost : Option (Nat × Nat)
  deriving DecidableEq, Repr

/-- A running XFE command on its channel: command, begin fc, steps done, fc in which the next step is due, fc of the last step (of a TWRITE
its tower slot), the pad lines already read of the step in progress, index line read last (ICOPY). -/
structure XfeRun where
  ch : XChan
  q : QCmd
  b : Nat
  j : Nat
  due : Nat
  t : Nat
  got : SMap Bytes
  idx : Bytes
  deriving DecidableEq, Repr

/-- The XFE (chapter 09): running commands, stopped, the fc from which any command may begin, per channel the fc from which its next
command may begin, a fault of this fc that is raised once the fc's writes have landed (command, code, the two suspects; R215), and
whether a hop fault of this fc stops it (R175). -/
structure Xfe where
  run : List XfeRun
  stopped : Bool
  nextBegin : Nat
  free : SMap Nat
  bad : Option (QCmd × Nat × Nat × Nat)
  halt : Bool
  deriving DecidableEq, Repr

/-- What an engine step still has to do after its issue (R146, Table 9-4): write lanes of a vector register, lanes of a mask
register, whole or partial pad lines in one fc, line `j` of `m` of an entry of ring `n`, the digest line with its latches
(R155), an accumulator row, lines of the tower, send a unit. Byte enables stand beside partial lines. -/
inductive LateAct where
  | vreg (n : Nat) (lanes : BitVec 128) (vals : List W32)
  | vmask (n : Nat) (lanes vals : BitVec 128)
  | pad (ls : List (Nat × Bytes × BitVec 64))
  | ring (n j m : Nat) (b : Bytes) (en : BitVec 64)
  | dig (line : Nat) (b : Bytes) (y : BitVec 128) (n : Nat)
  | acc (row : Nat) (b : Bytes)
  | twr (ls : List (Nat × Bytes))
  | hop (u : HopUnit)
  deriving DecidableEq, Repr

/-- A late effect: the fc it is due in, the unit code of its engine, the fc of its step, its command. -/
structure Late where
  due : Nat
  unit : Nat
  iss : Nat
  q : QCmd
  act : LateAct
  deriving DecidableEq, Repr

/-- A tile (chapters 02, 04 to 09). Of its fields: `used`, `claims`, `gpend`, `ringD` and `links` hold what its units have done in this fc;
`starts` the threads that start with the next fc (R79), `csrw` the CSRW writes that take effect in a later fc (fc, thread, offset, value;
R102), `refetch` the fetches of the pace thread that wait for a slot (fc, line; R81), `raised` the W1C fields that were set in this fc
(register, lowest bit; R8), `awaitA` the engines (0 MXE, 1 VXE, 2 XFE) stopped by a fault whose abort instant is still to come (R430). -/
structure Tile where
  regs : SMap W64
  thr : SMap Thread
  flip : Option Flip
  lastGather : Nat
  used : List Nat
  claims : List Claim
  gpend : List GChange
  ringD : SMap (Nat × Nat)
  mxq : List QCmd
  vxq : List QCmd
  xfq : List QCmd
  sendq : List QCmd
  arms : SMap (Option Arm)
  fires : SMap (Option Fire)
  ckpt : SMap (Option Ckpt)
  slots : SMap (Option HopUnit)
  links : List Nat
  refetch : List (Nat × Nat)
  starts : SMap (Option (BitVec 15))
  csrw : List (Nat × Nat × Nat × W64)
  raised : List (Nat × Nat)
  awaitA : List Nat
  hopShut : Bool
  held : List HeldReport
  seenR0 : Option Nat
  late : List Late
  mxe : Mxe
  vxe : Vxe
  xfe : Xfe
  deriving DecidableEq, Repr

/-- A thread at reset (R105). -/
def Thread.init : Thread := ⟨[], 0, [], [], 0, .halted, []⟩
/-- A plane not loaded (R135). -/
def Plane.init : Plane := ⟨0, 0, false, []⟩
/-- The MXE at reset (R135). -/
def Mxe.init : Mxe := ⟨[], [], [], [], [], 0, 0, false, 0, 0, 0, [], [], none⟩
/-- The VXE at reset (R158). -/
def Vxe.init : Vxe := ⟨[], [], [], 0, 0, false, [], false, 0, none⟩
/-- The XFE at reset (R234). -/
def Xfe.init : Xfe := ⟨[], false, 0, [], none, false⟩
/-- A tile at reset (R57, R105, R135, R158, R182, R204, R234). -/
def Tile.init : Tile :=
  { regs := [], thr := [], flip := none, lastGather := 15, used := [], claims := [], gpend := [], ringD := [], mxq := [],
    vxq := [], xfq := [], sendq := [], arms := [], fires := [], ckpt := [], slots := [], links := [], refetch := [], starts := [], csrw := [],
    raised := [], awaitA := [], hopShut := false, held := [], seenR0 := none, late := [], mxe := Mxe.init, vxe := Vxe.init, xfe := Xfe.init }

/-- A synchronous domain, R216 R221: formed, fc count, phase within the fc in 1/64 of a nominal period, stretch still to be
spent in the same unit, the fc at which it stops for a freeze, the frequency changes to come with their switch fc, the earliest first
(R222). -/
structure Domain where
  formed : Bool
  fc : Nat
  phase : Nat
  debt : Nat
  stop : Option Nat
  switch : List (Nat × Nat)
  deriving DecidableEq, Repr

/-- A domain at reset. -/
def Domain.init : Domain := ⟨false, 0, 0, 0, none, []⟩

/-- An announced fire of a gun channel, R162: instant, verdict, whether it is a re-run (R171). -/
structure Announce where
  n : Nat
  verdict : BitVec 16
  rerun : Bool
  deriving DecidableEq, Repr

/-- A gun channel beyond its registers, R159 to R171: the tiles that have reported with their offers, the announced fire, an
error report held for the fire instant, the wall time its bound counts from, the instant and verdict of its latest segment, whether its bound has expired since,
the verdict of its aborted segment. -/
structure Chan where
  got : List (Nat × Option (BitVec 16))
  ann : Option Announce
  errAt : Bool
  since : Nat
  fired : Option (Nat × BitVec 16)
  timed : Bool
  rv : BitVec 16
  deriving DecidableEq, Repr

/-- A channel at reset (R182). -/
def Chan.init : Chan := ⟨[], none, false, 0, none, false, 0⟩

/-- A segment of a gun group: its channel, fire instant, verdict. Its checkpoint is, in each tile, the one of that instant (R167). -/
structure Seg where
  ch : Nat
  n : Nat
  verdict : BitVec 16
  deriving DecidableEq, Repr

/-- A pending abort, R168: its instant A, R0, the segment to be restarted. -/
structure Abort where
  a : Nat
  r0 : Nat
  seg : Seg
  deriving DecidableEq, Repr

/-- The history of a gun group, by region mask, R162 R167 R168: the segments its checkpoint slots hold, the current one first, at most two, and
a pending abort. -/
structure Group where
  mask : Nat
  segs : List Seg
  abort : Option Abort
  deriving DecidableEq, Repr

/-- A unit in flight towards a tile's incoming link (0 N, 1 E, 2 S, 3 W), due at a fc of the receiver (R174); `lag`: a clock fault holds its
sender's region back (R220). -/
structure HopFly where
  unit : HopUnit
  src : Nat
  tile : Nat
  dir : Nat
  due : Nat
  lag : Bool
  deriving DecidableEq, Repr

/-- A tower beyond its registers, R64 R68 to R70 R73: vaults claimed by tile ports (fc, vault, tile) and by service accesses (fc, vault);
the pending write-backs (fc, line, whether of the fix queue, else of the scrubber); the fix queue; the period of 28 crystal ticks in which the scrubber
read last; whether its layers have been renumbered since its last wipe. Lines are physical. -/
structure Tower where
  claims : List (Nat × Nat × Nat)
  svc : List (Nat × Nat)
  wb : List (Nat × Nat × Bool)
  fixq : List Nat
  period : Nat
  stale : Bool
  deriving DecidableEq, Repr

/-- A tower at reset (R76). -/
def Tower.init : Tower := ⟨[], [], [], [], 0, false⟩

/-- No fault stops this machine: the spec gives every error an effect on the state (INVENTORY.md, Faults). The one constructor is
raised by nobody; it stands so that the type is a closed inductive. Safe: the machine never answers with it. -/
inductive Fault where
  /-- Raised by nobody. Safe. -/
  | none
  deriving DecidableEq, Repr

/-- Why a command is not performed. -/
inductive Refusal where
  /-- A command without a meaning, named by its mnemonic; raised by the dispatch alone. Safe: nothing is proved of it. -/
  | notModelled (mnemonic : String)
  deriving DecidableEq, Repr

/-- What the chip has sent to the outside: a completion to a host requester (0 success, 1 unsupported request, 2 completer
abort), a status with data to the management core, MSI-X vector `m` to the host. -/
inductive Out where
  /-- A 256 B flit leaves port `p` (R237). -/
  | flit (p : Nat) (raw : Bytes)
  /-- The parameters sent in the training frames of port `p`: device ID, peer ID, lanes, reserve and shared credits advertised (R254). -/
  | training (p : Nat) (dev : W64) (peer lanes adv advShared : Nat)
  /-- PPS_OUT rises at a whole second of wt (R231). -/
  | pps (sec : Nat)
  | host (req : BitVec 16) (status : Nat) (data : Bytes)
  | mgmt (ok : Bool) (data : Bytes)
  | msix (m : Nat)
  /-- A UIO request: number, write or read, PBR ID, IDE stream, address, length, data (R354). -/
  | uio (id : Nat) (wr : Bool) (dpid : Nat) (stream : Option Nat) (addr len : Nat) (data : Bytes)
  /-- A response to a DOE object: OBJ, STATUS, body (R367). -/
  | doe (obj status : Nat) (body : Bytes)
  /-- What a read-out delivers (R420). -/
  | readout (data : Bytes)
  /-- READY, in answer to POWER_DOWN (R407). -/
  | ready
  deriving DecidableEq, Repr

/-- A hub request as it stands in a hub's queue, R262: requesting tile, its polder and tenant, the two descriptor words. -/
structure HubReq where
  tile : Nat
  polder : Option Nat
  tenant : Nat
  w0 : W64
  w1 : W64
  deriving DecidableEq, Repr

/-- A message at its source, R261: class, header words (NBYTES of a packed one is set when its first flit is taken), data as read
from the pad, whether its class and kind may be packed (R302), whether it still waits for compact-mode credit (R267), requesting
tile and hub, the gauge its completion adds to, tenant tag, polder. -/
structure Msg where
  cls : Nat
  w0 : W64
  w1 : W64
  data : Bytes
  pack : Bool
  credit : Bool
  tile : Nat
  hub : Nat
  cg : Option Nat
  tenant : Nat
  polder : Option Nat
  deriving DecidableEq, Repr

/-- A DATA flit in a staging or replay buffer, R237, with the tile that requested its message (R259). -/
structure Flit where
  cls : Nat
  seq : Nat
  som : Bool
  eom : Bool
  sh : Bool
  tenant : Nat
  msgid : Nat
  pay : Bytes
  tile : Option Nat
  deriving DecidableEq, Repr

/-- A message arriving on a class of a port: header words, tenant tag, MSGID, data arrived and not yet taken up, the SH bits of the
flits whose pool units are held, EOM seen, taken up, data bytes taken up, lines or blocks landed, failed with a status, no
completion wanted (R251), an entry was dropped (RING) or the block is written (SLOT), the block position plus one (SLOT) or the entries stored (RING), a flit after the
first carried another tenant tag (R18), the path it arrived on with that path's RX declaration of its class as its SOM arrived (R302, R314). -/
structure RxMsg where
  w0 : W64
  w1 : W64
  tenant : Nat
  msgid : Nat
  buf : Bytes
  units : List Bool
  eom : Bool
  begun : Bool
  pos : Nat
  lines : Nat
  fail : Option Nat
  mute : Bool
  flag : Bool
  blk : Nat
  mixed : Bool
  decl : Option (Nat × Nat)
  deriving DecidableEq, Repr

/-- A port beyond its registers (R239 to R256). Keyed by class (8: the shared pool) or by space (0 main, 1 C0, 2 C1):
flits of the message in sending; C0 and C1 messages of the port; replay buffers; how many flits at a buffer's end are to be resent;
next SEQ; expected SEQ; the SEQ a gap was declared for; RPL due; credits held; credits to return; units in use; the window's
largest samples; the window's counts; an uncorrectable codeword seen since a space last accepted; arriving messages; messages
awaiting completion by MSGID; the next MSGID; completions to send (MSGID, STATUS, lines); DATA flits accepted since the last
acknowledgement and the wt of the oldest; a CTRL flit due; a command to send with its ARG; the wt until which CMD 1 goes on; the wt
of the last ARQ flit; round robin; replay timers; the window's start; the state and wt HELD was entered from; the wt a retrain
attempt began, whether it is a full one, whether this end follows; the wts of DOWN events; lanes the peer asked for; wt of the last
CTRL flit; the first lane of the group in use (R235). -/
structure LPort where
  stage : SMap (List Flit)
  own : SMap (List Msg)
  buf : SMap (List Flit)
  togo : SMap Nat
  seq : SMap Nat
  exp : SMap Nat
  gap : SMap (Option Nat)
  rplDue : List Nat
  cred : SMap Nat
  ret : SMap Nat
  use : SMap Nat
  top : SMap (Option Nat)
  rpl : Nat
  crce : Nat
  fecu : Nat
  fec : List Nat
  rx : SMap (List RxMsg)
  wait : List (Nat × Msg)
  nextId : Nat
  cmpls : SMap (List (Nat × Nat × Nat))
  acks : Nat
  ackAt : Option Nat
  ctrl : Bool
  cmd : Option (Nat × Nat)
  cmdTill : Nat
  arqAt : Option Nat
  rr : Nat
  timer : SMap (Option Nat)
  winAt : Nat
  held : Option (Nat × Nat)
  attempt : Option Nat
  full : Bool
  follow : Bool
  downs : List Nat
  wantLanes : Option Nat
  lastCtrl : Nat
  lane : Nat
  deriving DecidableEq, Repr

/-- A port at reset (R271). -/
def LPort.init : LPort :=
  { stage := [], own := [], buf := [], togo := [], seq := [], exp := [], gap := [], rplDue := [], cred := [], ret := [], use := [],
    top := [], rpl := 0, crce := 0, fecu := 0, fec := [], rx := [], wait := [], nextId := 0, cmpls := [], acks := 0, ackAt := none,
    ctrl := false, cmd := none, cmdTill := 0, arqAt := none, rr := 0, timer := [], winAt := 0, held := none, attempt := none,
    full := false, follow := false, downs := [], wantLanes := none, lastCtrl := 0, lane := 0 }

/-- A path beyond its registers (R259, R260): its queue per class, the grace left (in units of wt) and since when it runs. -/
structure LPath where
  q : SMap (List Msg)
  left : Nat
  since : Option Nat
  deriving DecidableEq, Repr

/-- A path at reset. -/
def LPath.init : LPath := ⟨[], 0, none⟩

/-- A region of a slot ring that is being filled (R196, R197): region, batch, the block positions taken with their ranks, those written. -/
structure Fill where
  region : Nat
  batch : Nat
  pos : List (Nat × Nat)
  done : List Nat
  deriving DecidableEq, Repr

/-- An enabled entry of a hub (R265, R277): its polder, its record, the outstanding grant of a landing entry, the regions in filling of
a slot entry. -/
structure Entry where
  polder : Nat
  desc : BitVec 128
  gout : Nat
  fill : List Fill
  deriving DecidableEq, Repr

/-- A baton send context (R278): header, key slot and key, requesting tile, path, destination entry, lines sent, ciphertext of the open chunk, polder. -/
structure SendCtx where
  hdr : Bytes
  slot : Nat
  key : Bytes
  tile : Nat
  path : Nat
  entry : Nat
  sent : Nat
  ct : Bytes
  polder : Option Nat
  deriving DecidableEq, Repr

/-- A baton receive context (R275 to R280): receive entry and its polder, arriving port (none for the host hub), header, key slot and key, ciphertext of the open
chunk, tags received, bytes of a tag in arrival, ciphertext lines received, verified chunks in staging, lines delivered, wt of the
latest message, verified. -/
structure RecvCtx where
  entry : Nat
  polder : Nat
  port : Option Nat
  hdr : Bytes
  slot : Nat
  key : Bytes
  ct : Bytes
  tags : Bytes
  part : Bytes
  got : Nat
  staged : List Bytes
  delivered : Nat
  last : Nat
  verified : Bool
  deriving DecidableEq, Repr

/-- A hub: its request queue (64 for a link hub, R262); entries by 64 × kind + number; send and receive contexts; info records that
wait for room in their rings (tile, ring, record, R280). -/
structure Hub where
  reqs : List HubReq
  ent : SMap (Option Entry)
  send : SMap (Option SendCtx)
  recv : SMap (Option RecvCtx)
  info : List (Nat × Nat × Bytes)
  deriving DecidableEq, Repr

/-- A hub at reset (R271, R301). -/
def Hub.init : Hub := ⟨[], [], [], [], []⟩

/-- A tenant record (R369). -/
structure TenantRec where
  tenant : Nat
  rseq : Nat
  key : Bytes
  pub : Bytes
  deriving DecidableEq, Repr

/-- The fuses (R364, R368, R379, R381): life-cycle code, programmed owner slots, rollback counter, whether the UDS is overwritten, and
the free value it was generated as if that happened in this model's time. -/
structure Fuses where
  lc : Nat
  owners : List Bytes
  svn : Nat
  udsGone : Bool
  udsGen : Option Nat
  deriving DecidableEq, Repr

/-- A heat sketch (R292, R293): counters by 4,096 × row + index, candidates by entry (row number, estimate). -/
structure Sketch where
  cnt : SMap Nat
  cand : SMap (Option (Nat × Nat))
  deriving DecidableEq, Repr

/-- A sketch cleared. -/
def Sketch.init : Sketch := ⟨[], []⟩

/-- A mailbox beyond its registers and rings, R353 R356 to R360: bound to the requester in SESS.REQID, events that wait for room, the
challenge of a PROVING session, the wts of the drops of the last ms, the wt of its latest HOST_DROP event. -/
structure Mbox where
  bound : Bool
  wait : List Bytes
  chal : Bytes
  drops : List Nat
  dropAt : Option Nat
  deriving DecidableEq, Repr

/-- A mailbox at reset (R363). -/
def Mbox.init : Mbox := ⟨false, [], [], [], none⟩

/-- A part of a UIO transfer (R354): number, number of its request, write or read, the PBR ID and IDE stream it goes by, address,
length, byte offset within its request, data of a write, wt of issue once issued (R355). -/
structure UioPart where
  id : Nat
  job : Nat
  wr : Bool
  dpid : Nat
  stream : Option Nat
  addr : Nat
  len : Nat
  off : Nat
  data : Bytes
  at_ : Option Nat
  deriving DecidableEq, Repr

/-- A slow-tier request in progress (R281, R290, R354): number, descriptor, polder, kind (0 SREAD, 1 SWRITE, 2 BFETCH), parts still
to complete, error; of a BFETCH the bytes requested, those taken up, those in arrival by offset, the whole length, its context. -/
structure SlowJob where
  id : Nat
  req : HubReq
  polder : Nat
  kind : Nat
  left : Nat
  err : Bool
  next : Nat
  taken : Nat
  buf : List (Nat × Bytes)
  total : Nat
  ctx : Option Nat
  deriving DecidableEq, Repr

/-- A receipt whose digests are computed (R324): descriptor, polder, BATCH, EPOCH, IN, OUT, EPDIG, wt of the end of the reads. -/
structure RcptJob where
  req : HubReq
  polder : Nat
  batch : Nat
  epoch : Nat
  inp : Bytes
  outp : Bytes
  epdig : Bytes
  wt : Nat
  deriving DecidableEq, Repr

/-- The receipt chain of a polder (R326, R327): anchor, start of the seal interval, SEQ of its first receipt, ends and MSEQ of
intervals whose seal is due. -/
structure Chain where
  anchor : Bytes
  start : Nat
  first : Nat
  due : List (Nat × Nat)
  deriving DecidableEq, Repr

/-- A chain at reset. -/
def Chain.init : Chain := ⟨[], 0, 0, []⟩

/-- The statement window of a polder (R346): its start, the meters at its start, whether it is the first. -/
structure Meter where
  start : Nat
  base : List Nat
  first : Bool
  deriving DecidableEq, Repr

/-- A meter window that has ended and whose statements are still to be signed (R345, R346): its end in ns, its length in s, the meters and the
regions of the eight polders at its end, and the domains whose fc in progress at the end still belongs to it. -/
structure Window where
  ends : Nat
  len : Nat
  meters : List (List Nat)
  masks : List Nat
  spans : List Nat
  deriving DecidableEq, Repr

/-- The wipe of a polder in QUARANTINE (R339, R340): wt of Q, MSEQ of the final statement, final seal (empty without receipts), final statement,
regions, tenant, the fc at which the wipe began. -/
structure Wipe where
  qwt : Nat
  mseq : Nat
  fin : Bytes
  stmt : Bytes
  mask : Nat
  tenant : Nat
  begun : Option Nat
  deriving DecidableEq, Repr

/-- A PENDING commit (R338): the channel of its gun instant, and the mailbox and TAG of the COMMIT command that waits for it. -/
structure Commit where
  gun : Option Nat
  ans : Option (Nat × Bytes)
  deriving DecidableEq, Repr

/-- An open case of the fault funnel (R398): wt of its opening, wt of its closing, its reports, INCOMPLETE. -/
structure Case where
  opened : Nat
  closes : Nat
  reps : List Report
  incomplete : Bool
  deriving DecidableEq, Repr

/-- A key held in a router (R397): the key, the wt it was taken at, the weight dropped, whether all of that was secondary, the wt
of the last drop. -/
structure RKey where
  key : RouterKey
  since : Nat
  count : Nat
  sec : Bool
  last : Nat
  deriving DecidableEq, Repr

/-- A fault that counts towards a criterion of Table 17-4: class, culprit, wt, WEIGHT. -/
structure Past where
  cls : Nat
  cul : Nat
  wt : Nat
  n : Nat
  deriving DecidableEq, Repr

/-- The re-tiering of a polder (R294, R401): update points, passes still to start, the pass in progress (sketch, orders issued), next
ORDER, orders that wait for room in the order ring, orders reported. -/
structure Retier where
  count : Nat
  todo : Nat
  pass : Option (Nat × Nat)
  order : Nat
  wait : List Bytes
  reported : Nat
  deriving DecidableEq, Repr

/-- Re-tiering at reset. -/
def Retier.init : Retier := ⟨0, 0, none, 0, [], 0⟩

/-- An outstanding RELOAD order (R298): polder, ORDER, the channels whose re-run waits for it, region, half, block. -/
structure Reload where
  polder : Nat
  order : Nat
  chs : List Nat
  region : Nat
  half : Nat
  block : Nat
  deriving DecidableEq, Repr

/-- The records of the flash that are not kept elsewhere (Table 17-2): preferred image (B if true), trial and tries; configuration
registers by BAR0 offset; PRES by region; repair map by 6 × region + row (column plus one); retired regions; device certificate;
persisted MSEQ and certificate sequence; lifetime log. -/
structure Flash where
  prefB : Bool
  trial : Bool
  tries : Nat
  cfg : List (Nat × W64)
  pres : SMap Nat
  repair : SMap Nat
  absent : List Nat
  cert : Bytes
  mseq : SMap Nat
  cseq : Nat
  life : SMap Nat
  deriving DecidableEq, Repr

/-- What the ROM and Terern hold after boot (R365, R387): measurement, CDI, device private key, the six certificates, image B
running. -/
structure Boot where
  mt : Bytes
  cdi : Bytes
  devKey : Bytes
  certs : List Bytes
  imageB : Bool
  deriving DecidableEq, Repr

/-- Before boot. -/
def Boot.init : Boot := ⟨[], [], [], [], false⟩

/-- A stretched fc of a region: the wave's origin, its fc there and its factor (2 periods, else 1.5), R218 R219. -/
structure Stretch where
  region : Nat
  fc : Nat
  origin : Nat
  start : Nat
  two : Bool
  deriving DecidableEq, Repr

/-- A region's timekeeper as its last pace pulse left it, R228: the count of reference periods and its wt at the pulse, its rate correction in
1/256,000 ppm. -/
structure Timekeeper where
  at_ : Nat
  wt : Nat
  rate : Int
  deriving DecidableEq, Repr

/-- The state of the block: registers and the applied copies of staged ones; memory; CRC-16 differences of pad lines and accumulator
rows; wrong symbols of tower lines; tiles, towers, domains; gun channels and groups; what travels between units (hop units, fire and
abort messages, requests, gauge adds, ready and fault reports); ports, paths, credit counters, the open timebase exchange (number,
port, t1) and the number of the next, retired ports listed in flash, hubs; verified baton indices per epoch slot, pending admission switches, watermark and heat writes in flight, sketches; keys
by slot, tenant records, fuses, debug tokens and last serials;
whether the freeze gauge showed its condition; UIO parts, slow-tier requests, the next number of either, completions held while frozen; receipts whose digests are
computed, receipt chains; pending quarantine instants, wipes, pending commit; statement windows, the end of the running window (ns), the windows
that have ended without a statement,
energy fractions in 1/1,152 µJ (8: idle), statements and certificates retained (polder, entry TYPE, bytes), certificate sequence,
polders whose next statement sets GAP, statements of a reset still to be signed (polder, bytes 0 to 205 without MSEQ), wt of the reset and of the end of its wipe; re-tiering, outstanding RELOAD orders; open cases, reports that wait for a case, cases closed, a
report was dropped, keys of the routers, faults that count towards permanence, tiles marked for test, tower layers (4 × region +
layer) and regions marked for retirement, regions cleared by LIST_CLEAR; passes below the caps' limits, operator staging not yet
committed; regions waiting to wake and waking (with the wt of the end); lifetime counters; flash records; boot secrets; THERMTRIP_N
latch; latched BIF, PERST_N asserted, wt from which timers are suspended; PWR_OK_AON high, the ns from which power-on time is still to be counted; per tower layer
the wts of its corrections of the last 24 h, layers whose FAULT_CASE event is due, lines rewritten after a failed check (key, wt), tiles whose
repair map entry is pending; IDE streams established; mailboxes; what left the chip; wall time, timebase and calendar; the timebase's
source in use (0 none, else as SRCA), reference periods counted and the timekeepers of the regions that have had a pace pulse (R228), the wt of each
region's last monitor request (R223); stretch
waves; host accesses to a tower that wait for the wake of its region (access, length, data of a write; R71); the W1C fields of the chip's registers set in this cycle (R8); the counter of free values; the waiting commands. -/
structure State where
  regs : SMap W64
  applied : SMap W64
  mem : List Host.Cell
  crcDelta : SMap (BitVec 16)
  symErr : SMap (List Nat)
  tiles : SMap Tile
  towers : SMap Tower
  doms : SMap Domain
  chans : SMap Chan
  groups : List Group
  hops : List HopFly
  fires : List (Nat × FireMsg)
  abortMsgs : List (Nat × Nat)
  abortReqs : List AbortReq
  untimed : List AbortReq
  gadds : List GaugeAdd
  readies : List ReadyRep
  reports : List Report
  ports : SMap LPort
  paths : SMap LPath
  credits : SMap Nat
  timeReq : Option (Nat × Nat × Nat)
  timeNo : Nat
  retired : List Nat
  hubs : SMap Hub
  verified : SMap (List Nat)
  admSwitch : SMap (List Nat)
  epDones : List (Nat × W32)
  heats : List (Nat × W64)
  sketches : SMap Sketch
  keys : SMap Bytes
  tenants : List TenantRec
  fuses : Fuses
  tokens : SMap (Option Bytes)
  serials : SMap Nat
  gaugeTrig : Bool
  uio : List UioPart
  slow : List SlowJob
  uioNo : Nat
  uioHeld : List (Nat × Bool × Bytes)
  rcptJobs : List RcptJob
  chains : SMap Chain
  quarAt : SMap (Option Nat)
  wipes : SMap (Option Wipe)
  commit : Option Commit
  meters : SMap (Option Meter)
  windowEnd : Nat
  windows : List Window
  energySub : SMap Nat
  retained : List (Option Nat × Nat × Bytes)
  cseq : Nat
  gaps : List Nat
  keeper : List (Nat × Bytes)
  resetAt : Nat
  wipedAt : Nat
  retiers : SMap Retier
  reloads : List Reload
  cases : List Case
  funnelQ : List Report
  caseNo : Nat
  lostReport : Bool
  routerKeys : List RKey
  past : List Past
  testMarks : List Nat
  layerMarks : List Nat
  regionMarks : List Nat
  cleared : List Nat
  capOk : SMap Nat
  opStaged : Bool
  wakeQ : List Nat
  waking : List (Nat × Nat)
  life : SMap Nat
  flash : Flash
  boot : Boot
  thermTrip : Bool
  bifNow : Nat
  perst : Bool
  frozenAt : Nat
  aonOk : Bool
  pohAt : Nat
  ceTimes : SMap (List Nat)
  ceCases : List Nat
  rewritten : List (Nat × Nat)
  repairMarks : List Nat
  ideUp : List Nat
  mgmt : List HubReq
  mboxes : SMap Mbox
  out : List Out
  wt : Nat
  wtSub : Nat
  rateAdj : Int
  offs : List Int
  tbSrc : Nat
  ref : Nat
  timekeepers : SMap (Option Timekeeper)
  monAt : SMap Nat
  cal : Nat
  utcSet : Bool
  calFlash : Nat
  stretch : List Stretch
  waves : List (Nat × Wave)
  clockStop : Bool
  xtalOff : Bool
  parked : List (HostAccess × Nat × Option Bytes)
  raised : List (Nat × Nat)
  free : Nat
  pending : List Instr
  deriving DecidableEq, Repr

/-- The first records of the flash: nothing but defaults (log 12). -/
def Flash.init : Flash := ⟨false, false, 0, [], [], [], [], [], [], 0, []⟩

/-- The machine right after cold reset: every register at its reset value (R7 to R10), the regions asleep, every rail in tolerance (log 11),
memories wiped, wall time, calendar, fuses and flash at the first contents of log 12, no command waiting. -/
def State.reset : State :=
  { regs := (0x120000, 0x7F) :: (List.range 24).map fun k => (0x120040 + 4 * k, 4)
    applied := [], mem := [], crcDelta := [], symErr := [], tiles := [], towers := [], doms := [], chans := [], groups := [],
    hops := [], fires := [], abortMsgs := [], abortReqs := [], untimed := [], gadds := [], readies := [], reports := [],
    ports := [], paths := [], credits := [], timeReq := none, timeNo := 0, retired := [], hubs := [], verified := [],
    admSwitch := [], epDones := [], heats := [], sketches := [], keys := [], tenants := [], fuses := ⟨0, [], 0, false, none⟩,
    tokens := [], serials := [], gaugeTrig := false, uio := [], slow := [], uioNo := 0, uioHeld := [], rcptJobs := [], chains := [],
    quarAt := [], wipes := [], commit := none, meters := [], windowEnd := 60000000000, windows := [], energySub := [], retained := [],
    cseq := 0, gaps := [], keeper := [], resetAt := 0, wipedAt := 0, retiers := [], reloads := [], cases := [], funnelQ := [], caseNo := 0,
    lostReport := false, routerKeys := [], past := [], testMarks := [], layerMarks := [], regionMarks := [], cleared := [],
    capOk := [], opStaged := false, wakeQ := [], waking := [], life := [], flash := Flash.init, boot := Boot.init,
    thermTrip := false, bifNow := 0, perst := false, frozenAt := 0, aonOk := false, pohAt := 0, ceTimes := [], ceCases := [],
    rewritten := [], repairMarks := [], ideUp := [], mgmt := [], mboxes := [], out := [], wt := 0, wtSub := 0, rateAdj := 0,
    offs := [], tbSrc := 0, ref := 0, timekeepers := [], monAt := [], cal := 0, utcSet := false, calFlash := 0, stretch := [], waves := [], clockStop := false, xtalOff := false,
    parked := [], raised := [], free := 0, pending := [] }

/-- The result of a pad access: done, refused by the line check (the pad's own record made), refused as a live code write. -/
inductive PadRes (α : Type) where
  | ok (a : α) (s : State)
  | crc (s : State)
  | live (s : State)

end Sys2Proof.Machine
end

