-- ==== Sys2Proof/Machine/Ops.lean ====
section
/-! DEFINITION. The named operations over memory, registers, tiles, rings, gauges, time and fault reports. -/
namespace Sys2Proof.Machine

/-! ### Sparse maps -/

/-- The value at a key; `d` where no entry stands. -/
def sget {α : Type} (d : α) : SMap α → Nat → α
  | [], _ => d
  | (j, v) :: m, k => if j = k then v else sget d m k

/-- An entry put before the first entry of a greater or equal key. -/
def sins {α : Type} : SMap α → Nat → α → SMap α
  | [], k, v => [(k, v)]
  | (j, w) :: m, k, v => if j < k then (j, w) :: sins m k v else (k, v) :: (j, w) :: m

/-- The map without a key. -/
def sdel {α : Type} (m : SMap α) (k : Nat) : SMap α := m.filter fun e => decide (e.1 ≠ k)

/-- The map with `v` at key `k`; writing the default removes the entry. -/
def sput {α : Type} [DecidableEq α] (d : α) (m : SMap α) (k : Nat) (v : α) : SMap α :=
  if v = d then sdel m k else sins (sdel m k) k v

/-- The canonical form: keys strictly rising and no entry at the default. -/
def swf {α : Type} [DecidableEq α] (d : α) : SMap α → Bool
  | [] => true
  | [(_, v)] => v != d
  | (j, v) :: (k, w) :: m => decide (j < k) && (v != d) && swf d ((k, w) :: m)

/-! ### Memory: pads, accumulators, towers and flash in one byte space -/

/-- What a byte that nothing has written reads as: zero, which a wipe writes (R57, R39, R72). -/
def Memory.init : Byte := 0

/-- The canonical form of memory. -/
abbrev Memory.wf (m : List Host.Cell) : Prop := swf Memory.init m = true

/-- One byte of memory. -/
def State.byte (s : State) (a : Nat) : Byte := sget Memory.init s.mem a

/-- Memory with one byte written. -/
def State.setByte (s : State) (a : Nat) (b : Byte) : State := { s with mem := sput Memory.init s.mem a b }

/-- `n` bytes from address `a` upwards. -/
def State.bytes (s : State) (a : Nat) : Nat → Bytes
  | 0 => []
  | n + 1 => s.byte a :: s.bytes (a + 1) n

/-- Bytes stored from address `a` upwards. -/
def State.setBytes (s : State) (a : Nat) : Bytes → State
  | [] => s
  | b :: bs => (s.setByte a b).setBytes (a + 1) bs

/-- Memory with the bytes of [lo, hi) zeroed. -/
def State.zeroRange (s : State) (lo hi : Nat) : State :=
  { s with mem := s.mem.filter fun c => decide (c.1 < lo) || decide (hi ≤ c.1) }

/-- A little-endian number of bytes (R6). -/
def leNat : Bytes → Nat
  | [] => 0
  | b :: bs => b.toNat + 256 * leNat bs

/-- The `n` little-endian bytes of a number (R6). -/
def natLe : Nat → Nat → Bytes
  | 0, _ => []
  | n + 1, v => BitVec.ofNat 8 v :: natLe n (v / 256)

/-- Byte `i` of a string; zero beyond its end. -/
def byteAt (b : Bytes) (i : Nat) : Byte := b.getD i 0

/-- Bytes `i` to `i + n - 1` of a string, zero beyond its end. -/
def slice (b : Bytes) (i n : Nat) : Bytes := (List.range n).map fun k => byteAt b (i + k)

/-- A string cut or zero-padded to `n` bytes. -/
def padTo (b : Bytes) (n : Nat) : Bytes := slice b 0 n

/-- Bits [hi:lo] of a number. -/
def bits (v hi lo : Nat) : Nat := v / 2 ^ lo % 2 ^ (hi - lo + 1)

/-- Bit `i` of a number. -/
def bit (v i : Nat) : Bool := v / 2 ^ i % 2 = 1

/-- Address of byte `a` of the pad of tile `t`: its BAR2 offset (Table 15-2). -/
def padAddr (t : Nat) (a : Nat) : Nat := t * 0x400000 + a

/-- Address of row `r` of the accumulator of tile `t` (the model's own place beyond BAR2). -/
def accAddr (t r : Nat) : Nat := 0x10000000000 + t * 0x80000 + r * 128

/-- Address of byte `a` of the tower of region `r`: its BAR2 offset (Table 15-2). -/
def twrAddr (r a : Nat) : Nat := 0x1000000000 + r * 0x200000000 + a

/-- Address of byte `a` of the management flash (the model's own place beyond BAR2). -/
def flashAddr (a : Nat) : Nat := 0x20000000000 + a

/-- Address of byte `a` of mailbox `m` (the model's own place beyond BAR2). -/
def mboxAddr (m a : Nat) : Nat := 0x30000000000 + m * 0x10000 + a

/-! ### Geometry (R12 to R14) -/

/-- Column of a tile. -/
def tileX (t : Nat) : Nat := t % 48
/-- Row of a tile. -/
def tileY (t : Nat) : Nat := t / 48
/-- Region of a tile, R14. -/
def regionOf (t : Nat) : Nat := tileY t / 6 * 3 + tileX t % 24 / 8 + 12 * (tileX t / 24)
/-- Half of a region: 0 West, 1 East. -/
def halfOf (r : Nat) : Nat := r / 12
/-- Region row (0 to 3) and column (0 to 5) on the die, R219. -/
def regionRC (r : Nat) : Nat × Nat := (r % 12 / 3, r % 3 + 3 * (r / 12))
/-- The tiles of a region in ascending index. -/
def tilesOf (r : Nat) : List Nat :=
  (List.range 48).map fun i => ((r % 12 / 3) * 6 + i / 8) * 48 + (r / 12) * 24 + r % 3 * 8 + i % 8
/-- The regions of a mask, ascending (R14). -/
def regionsOf (m : Nat) : List Nat := (List.range 24).filter fun r => bit m r
/-- The tiles of a region mask, ascending region. -/
def tilesOfMask (m : Nat) : List Nat := (regionsOf m).flatMap tilesOf

/-! ### Registers -/

/-- A chip register. -/
def State.reg (s : State) (r : Reg) (i : List Nat) : W64 := sget (r.reset i) s.regs (r.loc i)
/-- A chip register written whole. -/
def State.setReg (s : State) (r : Reg) (i : List Nat) (v : W64) : State :=
  { s with regs := sput (r.reset i) s.regs (r.loc i) v }
/-- A field of a chip register. -/
def State.fld (s : State) (r : Reg) (i : List Nat) (f : Fld) : Nat := f.get (s.reg r i)
/-- A W1C field that takes a value other than 0 is one that hardware sets in this cycle (R8). -/
def raise (r : Reg) (i : List Nat) (f : Fld) (v : Nat) (l : List (Nat × Nat)) : List (Nat × Nat) :=
  if decide (f.acc = .w1c) && decide (v ≠ 0) && !l.contains (r.loc i, f.lo) then (r.loc i, f.lo) :: l else l
/-- A field of a chip register written. -/
def State.setFld (s : State) (r : Reg) (i : List Nat) (f : Fld) (v : Nat) : State :=
  { s.setReg r i (f.set (s.reg r i) v) with raised := raise r i f v s.raised }
/-- A field that counts up and saturates at its largest value. -/
def State.incSat (s : State) (r : Reg) (i : List Nat) (f : Fld) (n : Nat) : State :=
  s.setFld r i f (min (s.fld r i f + n) (2 ^ f.width - 1))
/-- A field that counts up and wraps. -/
def State.incWrap (s : State) (r : Reg) (i : List Nat) (f : Fld) (n : Nat) : State := s.setFld r i f (s.fld r i f + n)
/-- The applied copy of a register with STG fields (R9, R337). -/
def State.app (s : State) (r : Reg) (i : List Nat) (f : Fld) : Nat := f.get (sget (r.reset i) s.applied (r.loc i))

/-- A tile register. -/
def Tile.reg (t : Tile) (r : Reg) (i : List Nat) : W64 := sget (r.reset i) t.regs (r.loc i)
/-- A tile register written whole. -/
def Tile.setReg (t : Tile) (r : Reg) (i : List Nat) (v : W64) : Tile :=
  { t with regs := sput (r.reset i) t.regs (r.loc i) v }
/-- A field of a tile register. -/
def Tile.fld (t : Tile) (r : Reg) (i : List Nat) (f : Fld) : Nat := f.get (t.reg r i)
/-- A field of a tile register written. -/
def Tile.setFld (t : Tile) (r : Reg) (i : List Nat) (f : Fld) (v : Nat) : Tile :=
  { t.setReg r i (f.set (t.reg r i) v) with raised := raise r i f v t.raised }
/-- A field of a tile register that counts up and saturates. -/
def Tile.incSat (t : Tile) (r : Reg) (i : List Nat) (f : Fld) (n : Nat) : Tile :=
  t.setFld r i f (min (t.fld r i f + n) (2 ^ f.width - 1))
/-- A field of a tile register that counts up and wraps. -/
def Tile.incWrap (t : Tile) (r : Reg) (i : List Nat) (f : Fld) (n : Nat) : Tile := t.setFld r i f (t.fld r i f + n)

/-- What a write leaves in a register by the access codes of its fields (Table 0-2, R7): RW, RWS and STG take the value, W1C bits
clear where 1 is written, RO and RSVD stay, WO stores nothing. -/
def writeFields : List Fld → W64 → W64 → W64
  | [], old, _ => old
  | f :: fs, old, v =>
    let r := writeFields fs old v
    match f.acc with
    | .rw | .rws | .stg => f.set r (f.get v)
    | .w1c => f.set r (f.get old &&& (2 ^ f.width - 1 - f.get v))
    | _ => r

/-- The W1C fields of a register that hardware has set in this cycle, set again after a write that would clear them (R8). -/
def keepRaised (l : List (Nat × Nat)) (r : Reg) (i : List Nat) (old v : W64) : W64 :=
  r.info.flds.foldl (fun w f => if decide (f.acc = .w1c) && l.contains (r.loc i, f.lo) then f.set w (f.get old) else w) v
/-- A tile register written by software: by the access codes of its fields, a W1C bit that is set in this very cycle staying set (R7, R8). -/
def Tile.write (t : Tile) (r : Reg) (i : List Nat) (v : W64) : Tile :=
  t.setReg r i (keepRaised t.raised r i (t.reg r i) (writeFields r.info.flds (t.reg r i) v))
/-- A chip register written by software (R7, R8). -/
def State.write (s : State) (r : Reg) (i : List Nat) (v : W64) : State :=
  s.setReg r i (keepRaised s.raised r i (s.reg r i) (writeFields r.info.flds (s.reg r i) v))

/-- What a read of a register returns by the access codes: WO and RSVD fields read zero (Table 0-2). -/
def readFields : List Fld → W64 → W64
  | [], _ => 0
  | f :: fs, v =>
    match f.acc with
    | .wo | .rsvd => readFields fs v
    | _ => f.set (readFields fs v) (f.get v)

/-- The bits of a word that lie in the named fields of a register. -/
def keepFields (flds : List Fld) (v : W64) : W64 := flds.foldl (fun r f => f.set r (f.get v)) 0

/-! ### Tiles -/

/-- A tile of the chip. -/
def State.tile (s : State) (t : Nat) : Tile := sget Tile.init s.tiles t
/-- A tile replaced. -/
def State.setTile (s : State) (t : Nat) (x : Tile) : State := { s with tiles := sput Tile.init s.tiles t x }
/-- A tile changed. -/
def State.modTile (s : State) (t : Nat) (f : Tile → Tile) : State := s.setTile t (f (s.tile t))
/-- Tiles changed, one after the other. -/
def State.modTiles (s : State) (ts : List Nat) (f : Tile → Tile) : State := ts.foldl (fun s t => s.modTile t f) s

/-- A thread of a tile. -/
def Tile.th (t : Tile) (n : Nat) : Thread := sget Thread.init t.thr n
/-- A thread replaced. -/
def Tile.setTh (t : Tile) (n : Nat) (x : Thread) : Tile := { t with thr := sput Thread.init t.thr n x }
/-- A scalar register; s0 reads zero (Table 4-1). -/
def Thread.sreg (x : Thread) (n : Nat) : W64 := if n = 0 then 0 else sget 0 x.s n
/-- A scalar register written; writes to s0 are discarded (Table 4-1). -/
def Thread.setS (x : Thread) (n : Nat) (v : W64) : Thread := if n = 0 then x else { x with s := sput 0 x.s n v }
/-- IDX of a loop level; an inactive level reads 0 (R84). -/
def Thread.idx (x : Thread) (n : Nat) : Nat := ((x.loops.find? fun l => l.level = n).map LoopRec.idx).getD 0
/-- Whether every thread is halted (CODE_CTL.ALL_HALTED). -/
def Tile.allHalted (t : Tile) : Bool := (List.range 16).all fun n => decide ((t.th n).st = .halted)
/-- The unit code of a thread (Table 2-2). -/
def thUnit (th : Nat) : Nat := if th = 0 then 4 else 5

/-! ### Polders and domains -/

/-- The polder whose applied region mask holds a region (Table 14-9). -/
def State.polderOf (s : State) (r : Nat) : Option Nat :=
  (List.range 8).find? fun d => bit (s.app .POLDER_CFG [d] F.POLDER_CFG_RMASK) r
/-- The polder of a tile. -/
def State.tilePolder (s : State) (t : Nat) : Option Nat := s.polderOf (regionOf t)
/-- The tenant of a polder, as applied. -/
def State.tenant (s : State) (d : Nat) : Nat := s.app .POLDER_CFG [d] F.POLDER_CFG_TENANT
/-- The state code of a polder (Table 14-1): 0 FREE, 1 ASSIGNED, 2 RUNNING, 3 QUARANTINE. -/
def State.polderState (s : State) (d : Nat) : Nat := s.fld .POLDER_STAT [d] F.POLDER_STAT_STATE
/-- A domain. -/
def State.dom (s : State) (d : Nat) : Domain := sget Domain.init s.doms d
/-- A domain replaced. -/
def State.setDom (s : State) (d : Nat) (x : Domain) : State := { s with doms := sput Domain.init s.doms d x }
/-- The fc count of a tile's domain; 0 where its region is in no domain. -/
def State.fc (s : State) (t : Nat) : Nat :=
  match s.tilePolder t with
  | some d => (s.dom d).fc
  | none => 0
/-- The applied frequency step m of a domain (R221). -/
def State.fapp (s : State) (d : Nat) : Nat := s.fld .DOM_STAT [d] F.DOM_STAT_FAPP

/-- A meter of a polder counts (Table 14-11), from its entry to ASSIGNED until Q (R343). -/
def State.meterAdd (s : State) (d i n : Nat) : State :=
  if decide (s.polderState d = 1) || decide (s.polderState d = 2) then
    s.setReg .MTR [d, i] (BitVec.ofNat 64 ((s.reg .MTR [d, i]).toNat + n))
  else s

/-! ### Gauges (R85 to R88) -/

/-- VALUE and ERR of a gauge. -/
def Tile.gauge (t : Tile) (g : Nat) : W64 := t.reg .GAUGE [g]
/-- Whether the wait condition holds, R88: VALUE at or above the threshold, or ERR. -/
def Tile.gaugeMet (t : Tile) (g thr : Nat) : Bool :=
  decide (thr ≤ t.fld .GAUGE [g] F.GAUGE_VALUE) || decide (t.fld .GAUGE [g] F.GAUGE_ERR = 1)
/-- What GRD and GWAIT deliver: ERR in bit 63, VALUE in bits [31:0] (Table 4-13). -/
def Tile.gaugeWord (t : Tile) (g : Nat) : W64 :=
  BitVec.ofNat 64 (t.fld .GAUGE [g] F.GAUGE_ERR * 2 ^ 63 + t.fld .GAUGE [g] F.GAUGE_VALUE)
/-- A change that lands on a gauge in this fc. -/
def Tile.gchange (t : Tile) (c : GChange) : Tile := { t with gpend := t.gpend ++ [c] }
/-- An add of this fc. -/
def Tile.gadd (t : Tile) (g n : Nat) (e : Bool) : Tile := t.gchange (.add (g % 16) n e)

/-- The last CSR write of this fc to a gauge. -/
def lastCsr (g : Nat) : List GChange → Option W64
  | [] => none
  | .csr h v :: cs => (lastCsr g cs).orElse fun _ => if h = g then some v else none
  | _ :: cs => lastCsr g cs
/-- The last GSET of this fc to a gauge. -/
def lastSet (g : Nat) : List GChange → Option W32
  | [] => none
  | .set h v :: cs => (lastSet g cs).orElse fun _ => if h = g then some v else none
  | _ :: cs => lastSet g cs
/-- The sum of the adds of this fc to a gauge, and whether one carries an error. -/
def sumAdds (g : Nat) : List GChange → Nat × Bool
  | [] => (0, false)
  | .add h n e :: cs => let r := sumAdds g cs; if h = g then (r.1 + n, r.2 || e) else r
  | _ :: cs => sumAdds g cs
/-- Whether a change is one of gauge `g`. -/
def GChange.on (g : Nat) : GChange → Bool
  | .csr h _ => h = g
  | .set h _ => h = g
  | .add h _ _ => h = g

/-- The changes of a fc applied to one gauge in the order of R86, with the saturation of R87. -/
def Tile.flushGauge (t : Tile) (cs : List GChange) (g : Nat) : Tile :=
  if cs.any (GChange.on g) then
    let base : Nat × Nat :=
      match lastSet g cs, lastCsr g cs with
      | some v, _ => (v.toNat, 0)
      | none, some v => (F.GAUGE_VALUE.get v, F.GAUGE_ERR.get v)
      | none, none => (t.fld .GAUGE [g] F.GAUGE_VALUE, t.fld .GAUGE [g] F.GAUGE_ERR)
    let a := sumAdds g cs
    let ovf := decide (2 ^ 32 ≤ base.1 + a.1)
    let v := if ovf then 2 ^ 32 - 1 else base.1 + a.1
    let e := if ovf || a.2 then 1 else base.2
    let t := t.setReg .GAUGE [g] (BitVec.ofNat 64 (e * 2 ^ 32 + v))
    if ovf then (t.setFld .CORE_FLT [] F.CORE_FLT_G_OVF 1).incSat .CORE_CNT [] F.CORE_CNT_GOVF_CNT 1 else t
  else t

/-- A waiting thread whose condition the gauges show in fc `fc`, with the gauge's word in that fc (R88). -/
def Tile.seeGauge (fc : Nat) (t : Tile) (th : Nat) : Tile :=
  match (t.th th).st with
  | .wait rd g thr since none a =>
    if t.gaugeMet g thr then t.setTh th { t.th th with st := .wait rd g thr since (some (fc, t.gaugeWord g)) a } else t
  | _ => t

/-- A HALTED thread started at a word (R79). -/
def Tile.startNow (t : Tile) (e : Nat × Option (BitVec 15)) : Tile :=
  match (t.th e.1).st, e.2 with
  | .halted, some pc => t.setTh e.1 { t.th e.1 with st := .run, pc := pc }
  | _, _ => t

/-- The end of fc `fc` in a tile, `n` fc being counted: gauge changes land and show in the fc after it, ring and finished-tile changes
become visible, slot and link claims and issue slots are given back, a stalled pace thread counts, started threads run (R28, R43, R78, R79, R86, R88,
R91, R154, R175). -/
def Tile.endFc (n fc : Nat) (t : Tile) : Tile :=
  let cs := t.gpend
  let t := (List.range 16).foldl (fun t g => t.flushGauge cs g) t
  let t := (List.range 16).foldl (Tile.seeGauge (fc + 1)) t
  let t := match (t.th 0).st with
    | .stall _ _ _ => t.incSat .CORE_CNT [] F.CORE_CNT_PSTALL_CNT n
    | _ => t
  let t := t.starts.foldl Tile.startNow t
  { t with gpend := [], ringD := [], claims := [], used := [], links := [], starts := [], raised := [], mxe := { t.mxe with ftrAdd := 0, ftrFree := 0 } }

/-- Whether a tile holds anything that the end of a fc changes. -/
def Tile.busyFc (t : Tile) : Bool :=
  !(t.gpend.isEmpty && t.ringD.isEmpty && t.claims.isEmpty && t.used.isEmpty && t.links.isEmpty && t.starts.isEmpty && t.raised.isEmpty) ||
    decide (t.mxe.ftrAdd ≠ 0) || decide (t.mxe.ftrFree ≠ 0) ||
    (match (t.th 0).st with | .stall _ _ _ => true | _ => false)

/-! ### Wall time -/

/-- The 64-bit wall time, bits [71:8] (R5). -/
def State.ns (s : State) : Nat := s.wt / 256

/-- A lifetime counter (Table 17-8) counts and saturates (R403). -/
def State.lifeAdd (s : State) (sel n : Nat) : State :=
  { s with life := sput 0 s.life sel (min (2 ^ 64 - 1) (sget 0 s.life sel + n)) }

/-- A line whose check fails is rewritten whole (the key of its CRC bookkeeping): R392 asks whether it fails again after that. -/
def State.rewrite (s : State) (key : Nat) (bad : Bool) : State :=
  if bad then { s with rewritten := (key, s.wt) :: s.rewritten } else s

/-- Nanoseconds in units of wt. -/
def nsWt (n : Nat) : Nat := n * 256

/-- The scale of rates: a correction of 1/256,000 ppm is one part of it. -/
def rateOne : Int := 256000000000

/-- The wt of a region's timekeeper (R228): from its last pace pulse at its own rate; before the first it is that of the timebase. -/
def State.regWt (s : State) (r : Nat) : Nat :=
  match sget none s.timekeepers r with
  | some k => k.wt + 1024 * (s.ref - k.at_) * (rateOne + k.rate).toNat / (7 * rateOne.toNat)
  | none => s.wt

/-- The wt that a unit stamps its reports with: that of its region's timekeeper for a tile or tower (R228, R345). -/
def State.unitWt (s : State) (u : Nat) : Nat :=
  if u < 1152 then s.regWt (regionOf u)
  else if decide (1174 ≤ u) && decide (u < 1198) then s.regWt (u - 1174)
  else s.wt

/-! ### Fault reports and segment aborts -/

/-- A fault report on its way to the funnel (R396). -/
def State.sendReport (s : State) (r : Report) : State := { s with reports := s.reports ++ [r] }

/-- A report of weight 1 stamped now. -/
def State.mkReport (s : State) (rep cls c0 c1 : Nat) (detail : Bytes) : Report :=
  ⟨rep, cls, false, false, c0, c1, 1, s.unitWt rep, padTo detail 13⟩

/-- A tile as suspect (R396). -/
def culTile (t : Nat) : Nat := t
/-- No second suspect. -/
def culNone : Nat := 0xFFFF

/-- The current segment of a tile: channel and checkpoint slot (R160). -/
def Tile.segment (t : Tile) : Option (Nat × Nat) :=
  if t.fld .SEG_STAT [] F.SEG_STAT_VALID = 1 then
    some (t.fld .SEG_STAT [] F.SEG_STAT_CH, t.fld .SEG_STAT [] F.SEG_STAT_SLOT)
  else none

/-- A report of a fault in a tile, R168: a fault after R0 that an abort message has made known is secondary, its report is marked and goes; in a
running segment any other report is held until its mark is known; without a segment it goes at once. Answers whether the fault is secondary. -/
def State.markReport (s : State) (t : Nat) (r : Report) (seg : Bool) : Bool × State :=
  let x := s.tile t
  let hold := s.modTile t fun x => { x with held := x.held ++ [⟨r, s.fc t⟩] }
  match x.seenR0 with
  | some r0 =>
    if r0 ≤ s.fc t then (true, (s.modTile t fun x => x.setFld .SEG_FLT [] F.SEG_FLT_SEC 1).sendReport { r with sec := true })
    else (false, hold)
  | none => (false, if seg then hold else s.sendReport r)

/-- A fault of segment (`ch`, checkpoint slot) in a tile, or of none, R160 R168: it is reported; one that is not secondary asks the controller for an
abort of its segment. -/
def State.segFaultOf (s : State) (t : Nat) (r : Report) (seg : Option (Nat × Nat)) : State :=
  match s.markReport t r seg.isSome, seg with
  | (false, s), some (ch, slot) => { s with abortReqs := s.abortReqs ++ [⟨Fin.ofNat 64 ch, Fin.ofNat 1152 t, slot⟩] }
  | (_, s), _ => s

/-- A fault of the running segment in a tile (R168). -/
def State.segFault (s : State) (t : Nat) (r : Report) : State := s.segFaultOf t r (s.tile t).segment

/-- The running segment of a tile aborts for a fault that a report of another unit tells (Table 2-3, R168). -/
def State.abortSeg (s : State) (t : Nat) : State :=
  let x := s.tile t
  match x.segment with
  | some (ch, slot) =>
    if (match x.seenR0 with | some r0 => decide (r0 ≤ s.fc t) | none => false) then
      s.modTile t fun x => x.setFld .SEG_FLT [] F.SEG_FLT_SEC 1
    else { s with abortReqs := s.abortReqs ++ [⟨Fin.ofNat 64 ch, Fin.ofNat 1152 t, slot⟩] }
  | none => s

/-- The untimed mark of R173: set once per segment, with one message to the controller. -/
def State.markUntimed (s : State) (t : Nat) : State :=
  let x := s.tile t
  match x.segment with
  | none => s.modTile t fun x => x.setFld .SEG_STAT [] F.SEG_STAT_UNT 1
  | some (ch, slot) =>
    if x.fld .SEG_STAT [] F.SEG_STAT_UNT = 1 then s
    else
      let s := s.modTile t fun x => x.setFld .SEG_STAT [] F.SEG_STAT_UNT 1
      { s with untimed := s.untimed ++ [⟨Fin.ofNat 64 ch, Fin.ofNat 1152 t, slot⟩] }

/-! ### Pad and accumulator -/

/-- A pad event recorded in PAD_ERR with the capture of R56. -/
def Tile.padEvent (t : Tile) (f : Fld) (line unit th : Nat) : Tile :=
  let w := t.reg .PAD_ERR []
  let w := if w.toNat % 128 = 0 then
      F.PAD_ERR_LINE.set (F.PAD_ERR_UNIT.set (F.PAD_ERR_THREAD.set w th) unit) line
    else w
  (t.setReg .PAD_ERR [] w).setFld .PAD_ERR [] f 1

/-- The bytes of PAD_ERR for a report's DETAIL (R37). -/
def padDetail (line unit th bitNo : Nat) : Bytes :=
  natLe 8 (line * 2 ^ 48 + unit * 2 ^ 44 + th * 2 ^ 32 + 2 ^ bitNo)

/-- Whether a scheduled requester finds a bank of the pad, or a port of the accumulator, taken in this fc; a free requester never
delays it (R26, R28, R29). -/
def Tile.taken (t : Tile) (bank : Nat) : Bool := t.claims.any fun c => decide (c.bank = bank) && decide (c.unit ≤ 4)

/-- The slot of a bank or port taken in this fc. -/
def Tile.grab (t : Tile) (bank line unit : Nat) (fetch : Bool) : Tile := { t with claims := ⟨bank, line, unit, fetch⟩ :: t.claims }

/-- A scheduled requester waits one fc, R28 R38: SLIP with its capture (R56), SLIP_CNT, the segment untimed. -/
def State.slip (s : State) (t line unit th : Nat) : State :=
  (s.modTile t fun x => (x.padEvent F.PAD_ERR_SLIP line unit th).incSat .PAD_CNT [] F.PAD_CNT_SLIP_CNT 1).markUntimed t

/-- One byte into a CRC-16 of polynomial 0x1021 (R36). -/
def crc16Step (c : BitVec 16) (b : Byte) : BitVec 16 :=
  (List.range 8).foldl (fun c _ => if c.getLsbD 15 then (c <<< 1) ^^^ 0x1021 else c <<< 1) (c ^^^ (b.zeroExtend 16 <<< 8))
/-- The CRC-16 of R36: initial value 0xFFFF, no reflection, no final inversion. -/
def crc16 (b : Bytes) : BitVec 16 := b.foldl crc16Step 0xFFFF
/-- The check of a line or row: over its bytes and its number, little-endian (R36, R39). -/
def lineCrc (b : Bytes) (n : Nat) : BitVec 16 := crc16 (b ++ natLe 2 n)

/-- The line number of CRC bookkeeping of a pad line. -/
def lineKey (t line : Nat) : Nat := padAddr t (64 * line) / 64
/-- The key of CRC bookkeeping of an accumulator row. -/
def rowKey (t row : Nat) : Nat := accAddr t row / 64

/-- A failed line check, R37: capture, flag, counter and the pad's own report. -/
def State.padCrcFail (s : State) (t line unit th : Nat) : State :=
  let s := s.modTile t fun x => (x.padEvent F.PAD_ERR_CRC line unit th).incSat .PAD_CNT [] F.PAD_CNT_CRC_CNT 1
  (s.markReport t (s.mkReport t 0xA6 (culTile t) culNone (padDetail line unit th 0)) (s.tile t).segment.isSome).2

/-- A failed accumulator row check, R39. -/
def State.accCrcFail (s : State) (t row unit th : Nat) : State :=
  let s := s.modTile t fun x => (x.padEvent F.PAD_ERR_ACC_CRC row unit th).incSat .PAD_CNT [] F.PAD_CNT_ACC_CRC_CNT 1
  (s.markReport t (s.mkReport t 0xA5 (culTile t) culNone (padDetail row unit th 1)) (s.tile t).segment.isSome).2

/-- The CRC-16 stored with a pad line: that of its bytes and number (R36), but for what has damaged it. -/
def State.lineCheck (s : State) (t line : Nat) : BitVec 16 :=
  lineCrc (s.bytes (padAddr t (64 * line)) 64) line ^^^ sget 0 s.crcDelta (lineKey t line)
/-- The CRC-16 stored with an accumulator row (R39). -/
def State.rowCheck (s : State) (t row : Nat) : BitVec 16 :=
  lineCrc (s.bytes (accAddr t row) 128) row ^^^ sget 0 s.crcDelta (rowKey t row)
/-- Whether a pad line's check passes: the stored CRC-16 is the one computed on the read (R36, R37; Laws: `lineOk_iff`). -/
def State.lineOk (s : State) (t line : Nat) : Bool := decide (sget 0 s.crcDelta (lineKey t line) = 0)
/-- Whether an accumulator row's check passes (R39; Laws: `rowOk_iff`). -/
def State.rowOk (s : State) (t row : Nat) : Bool := decide (sget 0 s.crcDelta (rowKey t row) = 0)

/-- `n` bytes of a pad at address `a` within one line, with the line check, taking no scheduled slot (R26, R37). -/
def State.padGet (s : State) (t a n unit th : Nat) : PadRes Bytes :=
  if s.lineOk t (a / 64) then .ok (s.bytes (padAddr t a) n) s else .crc (s.padCrcFail t (a / 64) unit th)

/-- What the line reads of a unit in one fc have given: the lines by place, the first line whose bank was taken, whether a line check
failed. -/
structure Reads where
  got : SMap Bytes
  lost : Option Nat
  crc : Bool

/-- Pad lines (place, line) read by a scheduled unit in this fc, each in a slot of its bank; every failed check counts and is reported
(R26, R28, R37). -/
def State.readLines (t unit th : Nat) : List (Nat × Nat) → Reads → State → Reads × State
  | [], r, s => (r, s)
  | (i, l) :: ls, r, s =>
    if (s.tile t).taken (l / 1024) then State.readLines t unit th ls { r with lost := r.lost.orElse fun _ => some l } s
    else
      let s := s.modTile t fun x => x.grab (l / 1024) l unit false
      if s.lineOk t l then
        State.readLines t unit th ls { r with got := sins (sdel r.got i) i (s.bytes (padAddr t (64 * l)) 64) } s
      else State.readLines t unit th ls { r with crc := true } (s.padCrcFail t l unit th)

/-- The lines of a code bank. -/
def Tile.inBank (t : Tile) (b line : Nat) : Bool :=
  let r : Reg := if b = 0 then .CODE_A else .CODE_B
  let base := t.fld r [] F.CODE_A_BASE * 64
  decide (base ≤ line) && decide (line < base + t.fld r [] F.CODE_A_SIZE * 64)

/-- Whether a write to a line is a live code write, R53: the line lies in the active bank and a thread is not halted. -/
def Tile.liveLine (t : Tile) (line : Nat) : Bool :=
  t.inBank (t.fld .CODE_CTL [] F.CODE_CTL_ACTIVE) line && !t.allHalted

/-- Bytes written into a pad line at address `a`, R30 R53: a narrow write checks and merges, a whole line replaces line and check;
no scheduled slot is taken. -/
def State.padPut (s : State) (t a : Nat) (b : Bytes) (unit th : Nat) : PadRes Unit :=
  let line := a / 64
  if (s.tile t).liveLine line then .live (s.modTile t fun x => x.padEvent F.PAD_ERR_LIVE line unit th)
  else if b.length < 64 && !s.lineOk t line then .crc (s.padCrcFail t line unit th)
  else
    let s := (s.setBytes (padAddr t a) b).rewrite (lineKey t line) (decide (64 ≤ b.length) && !s.lineOk t line)
    .ok () (if b.length < 64 then s else { s with crcDelta := sput 0 s.crcDelta (lineKey t line) 0 })

/-- An accumulator row read, with its check (R38, R39). -/
def State.accRead (s : State) (t row unit th : Nat) : PadRes Bytes :=
  if s.rowOk t row then .ok (s.bytes (accAddr t row) 128) s else .crc (s.accCrcFail t row unit th)

/-- An accumulator row written. -/
def State.accWrite (s : State) (t row : Nat) (b : Bytes) : State :=
  let s := s.rewrite (rowKey t row) (!s.rowOk t row)
  { s.setBytes (accAddr t row) b with crcDelta := sput 0 s.crcDelta (rowKey t row) 0 }

/-! ### Bounds windows (R31) -/

/-- Whether a line lies in a thread's window. -/
def Tile.inWindow (t : Tile) (th line : Nat) : Bool :=
  decide (t.fld .THR_BND [th] F.THR_BND_EN = 1) && decide (t.fld .THR_BND [th] F.THR_BND_BASE ≤ line) &&
    decide (line ≤ t.fld .THR_BND [th] F.THR_BND_LIMIT)

/-- The first line of a list that is outside the thread's window or beyond 65,535. The engines pass the ends of a command's spans, in
which case the line captured is the first span end that is outside (DESIGN CHOICE, log 61: R56 does not say which of several lines
LINE captures for a command). -/
def Tile.badLine (t : Tile) (th : Nat) (ls : List Nat) : Option Nat :=
  ls.find? fun l => decide (65535 < l) || !t.inWindow th l

/-! ### Rings (R40 to R51) -/

/-- Bytes of a ring's entry, R40. -/
def ringEsz (c : W64) : Nat :=
  let k := F.RING_CFG_ESZ.get c
  if k < 4 then 8 * 2 ^ k else 64 * 2 ^ (k - 3)
/-- Entries of a ring, R40. -/
def ringN (c : W64) : Nat := F.RING_CFG_SIZE.get c * 64 / ringEsz c
/-- Whether a ring's geometry is legal, R40. -/
def ringGeom (c : W64) : Bool :=
  let sz := F.RING_CFG_SIZE.get c
  decide (1 ≤ sz) && decide (sz ≤ 32768) && decide (F.RING_CFG_BASE.get c + sz ≤ 65536) &&
    decide (F.RING_CFG_ESZ.get c < 14) && decide (sz * 64 % ringEsz c = 0)
/-- A ring's configuration. -/
def Tile.ring (t : Tile) (n : Nat) : W64 := t.reg .RING_CFG [n]
/-- Head index. -/
def Tile.head (t : Tile) (n : Nat) : Nat := t.fld .RING_PTR [n] F.RING_PTR_HEAD
/-- Tail index. -/
def Tile.tail (t : Tile) (n : Nat) : Nat := t.fld .RING_PTR [n] F.RING_PTR_TAIL
/-- Occupancy by the pointers, R41. -/
def Tile.occ (t : Tile) (n : Nat) : Nat :=
  let sz := ringN (t.ring n)
  let h := t.head n; let l := t.tail n
  if t.fld .RING_PTR [n] F.RING_PTR_HW = t.fld .RING_PTR [n] F.RING_PTR_TW then
    if sz = 0 then 0 else (l + sz - h) % sz
  else if sz = 0 then 0 else sz - (h + sz - l) % sz
/-- Entries a consumer may take in this fc: those there at its start less those taken (R43). -/
def Tile.avail (t : Tile) (n : Nat) : Nat := t.occ n - (sget (0, 0) t.ringD n).1
/-- Entries that are not free for a producer in this fc: entries freed in this fc are not yet free (R43). -/
def Tile.kept (t : Tile) (n : Nat) : Nat := t.occ n + (sget (0, 0) t.ringD n).2
/-- Whether a producer finds the ring full in this fc (R43). -/
def Tile.ringFull (t : Tile) (n : Nat) : Bool := decide (ringN (t.ring n) ≤ t.kept n)
/-- An index of a ring as it was at the start of this fc, `k` entries back (R43). -/
def Tile.before (t : Tile) (n i k : Nat) : Nat := let sz := ringN (t.ring n); if sz = 0 then i else (i + sz - k % sz) % sz
/-- HEAD as it was at the start of this fc. -/
def Tile.headWas (t : Tile) (n : Nat) : Nat := t.before n (t.head n) (sget (0, 0) t.ringD n).2
/-- TAIL as it was at the start of this fc. -/
def Tile.tailWas (t : Tile) (n : Nat) : Nat := t.before n (t.tail n) (sget (0, 0) t.ringD n).1
/-- Occupancy at the start of this fc. -/
def Tile.occWas (t : Tile) (n : Nat) : Nat := t.occ n + (sget (0, 0) t.ringD n).2 - (sget (0, 0) t.ringD n).1
/-- Pad address of entry `i` of ring `n`. -/
def Tile.entryAddr (t : Tile) (n i : Nat) : Nat := F.RING_CFG_BASE.get (t.ring n) * 64 + i * ringEsz (t.ring n)
/-- The pad lines of entry `i`. -/
def Tile.entryLines (t : Tile) (n i : Nat) : List Nat :=
  let a := t.entryAddr n i
  (List.range ((ringEsz (t.ring n) + 63) / 64)).map fun k => a / 64 + k

/-- TAIL advanced by `k` entries with the gauge add of R45. -/
def Tile.advTail (t : Tile) (n k : Nat) : Tile :=
  let sz := ringN (t.ring n)
  let l := t.tail n + k
  let w := t.reg .RING_PTR [n]
  let w := if sz ≤ l then F.RING_PTR_TW.set (F.RING_PTR_TAIL.set w (l - sz)) (1 - F.RING_PTR_TW.get w)
           else F.RING_PTR_TAIL.set w l
  let d := sget (0, 0) t.ringD n
  let t := { t.setReg .RING_PTR [n] w with ringD := sput (0, 0) t.ringD n (d.1 + k, d.2) }
  let g := t.reg .RING_GAUGE [n]
  if F.RING_GAUGE_PEN.get g = 1 then t.gadd (F.RING_GAUGE_PG.get g) k false else t

/-- HEAD advanced by `k` entries with the gauge add of R45. -/
def Tile.advHead (t : Tile) (n k : Nat) : Tile :=
  let sz := ringN (t.ring n)
  let l := t.head n + k
  let w := t.reg .RING_PTR [n]
  let w := if sz ≤ l then F.RING_PTR_HW.set (F.RING_PTR_HEAD.set w (l - sz)) (1 - F.RING_PTR_HW.get w)
           else F.RING_PTR_HEAD.set w l
  let d := sget (0, 0) t.ringD n
  let t := { t.setReg .RING_PTR [n] w with ringD := sput (0, 0) t.ringD n (d.1, d.2 + k) }
  let g := t.reg .RING_GAUGE [n]
  if F.RING_GAUGE_CEN.get g = 1 then t.gadd (F.RING_GAUGE_CG.get g) k false else t

/-- A dropped entry on an edge ring, R46. -/
def Tile.ringOver (t : Tile) (n : Nat) : Tile :=
  (t.setFld .RING_STAT [n] F.RING_STAT_OVR 1).incSat .RING_STAT [n] F.RING_STAT_OVR_CNT 1

/-! ### The service plane -/

/-- Whether the destination router lets a packet of a tile, hub or the management core into a tile, R336. -/
def State.dikeTile (s : State) (src : Nat) (tenant : Nat) (dst : Nat) : Bool :=
  match s.tilePolder dst with
  | none => decide (src = 1171)
  | some d =>
    if s.polderState d = 3 then false
    else if src = 1171 then true
    else if s.polderState d = 0 then false
    else if src < 1152 then decide (s.tilePolder src = some d)
    else decide (tenant = s.tenant d)

/-- The routing sideband of a packet's first flit (Table 9-16); the virtual channel follows from the kind (R207). -/
structure Sideband where
  dest : Nat
  src : Nat
  tenant : Nat
  kind : Nat
  lenm1 : Nat
  deriving DecidableEq, Repr

/-- VC of a kind: remote gauge adds, ready reports, fault reports and responses travel on channel 1, all others on channel 0 (R207). -/
def Sideband.vc (b : Sideband) : Nat := if decide (1 ≤ b.kind) && decide (b.kind ≤ 4) then 1 else 0
/-- The 48 bits of the sideband (Table 9-16). -/
def Sideband.word (b : Sideband) : BitVec 48 :=
  BitVec.ofNat 48 (b.dest % 2048 * 2 ^ 36 + b.src % 2048 * 2 ^ 25 + b.tenant % 65536 * 2 ^ 9 + b.kind % 16 * 2 ^ 5 + b.lenm1 % 16 * 2 + b.vc)
/-- Whether a kind is defined (Table 9-16). -/
def Sideband.known (b : Sideband) : Bool := decide (1 ≤ b.kind) && decide (b.kind ≤ 10)

/-- The half that a unit lies in (R13, R17, R19): tiles, hubs and towers by their place; the host hub and the management core on the west edge;
none for the units whose place is the middle of the seam or is not given. -/
def unitHalf (u : Nat) : Option Nat :=
  if u < 1152 then some (tileX u / 24)
  else if u < 1168 then some ((u - 1152) % 8 / 4)
  else if decide (u = 1168) || decide (u = 1171) then some 0
  else if decide (1174 ≤ u) && decide (u < 1198) then some (halfOf (u - 1174))
  else none

/-- Whether packets between two units pass a seam ring: Split mode, units in different halves (R226). -/
def State.seamRing (s : State) (a b : Nat) : Bool :=
  decide (s.fld .SEAM_STAT [] F.SEAM_STAT_MODEA = 1) &&
    match unitHalf a, unitHalf b with
    | some x, some y => decide (x ≠ y)
    | _, _ => false

/-- A packet dropped at a dike, R336. -/
def State.svcDrop (s : State) : State := s.incWrap .DIKE_STAT [] F.DIKE_STAT_SVC_DROP 1

/-- The state with one free value taken: the counter that Config's free values are read at goes on. -/
def State.useFree (s : State) : State := { s with free := s.free + 1 }

/-- A packet on the service plane: a router drops one of undefined KIND (R207); the flits of one that crosses the seam in Split mode are counted
(R226). -/
def State.route (s : State) (b : Sideband) (k : State → State) : State :=
  if !b.known then s.svcDrop
  else k (if s.seamRing b.src b.dest then s.incWrap .SEAM_STAT [] F.SEAM_STAT_SR_FLITS (b.lenm1 + 1) else s)

/-- Host and management accesses between two units: how they are laid out in packets the spec does not say, so the number of flits that cross the
seam in Split mode is a free value (log 78). -/
def State.routeFree (s : State) (a b : Nat) : State :=
  if s.seamRing a b then s.useFree.incWrap .SEAM_STAT [] F.SEAM_STAT_SR_FLITS (Config.freeValue s.free).toNat else s

end Sys2Proof.Machine
end

