-- ==== Sys2Proof/Machine/Crypto.lean ====
section
/-! DEFINITION. The checksums and ciphers the spec fixes: CRC-32C, GHASH (R320), SHAKE256, AES-256-GCM. -/
namespace Sys2Proof.Machine

/-- ASCII bytes of a label. -/
def ascii (l : String) : Bytes := l.toList.map fun c => BitVec.ofNat 8 c.toNat
/-- A block of 16 bytes as a polynomial in the bit order of GHASH: byte 0 highest. -/
def blockOf (b : Bytes) : BitVec 128 := (padTo b 16).foldl (fun a x => (a <<< 8) ||| x.zeroExtend 128) 0
/-- The 16 bytes of a block. -/
def blockBytes (x : BitVec 128) : Bytes := (List.range 16).map fun i => (x >>> (8 * (15 - i))).truncate 8

/-- One bit of the product in GF(2^128) of GCM. -/
def gfStep (x : BitVec 128) (zv : BitVec 128 × BitVec 128) (i : Nat) : BitVec 128 × BitVec 128 :=
  let z := if x.getLsbD (127 - i) then zv.1 ^^^ zv.2 else zv.1
  let v := if zv.2.getLsbD 0 then (zv.2 >>> 1) ^^^ (0xE1#128 <<< 120) else zv.2 >>> 1
  (z, v)
/-- The product in GF(2^128) of GCM (NIST SP 800-38D). -/
def gfMul (x y : BitVec 128) : BitVec 128 := ((List.range 128).foldl (gfStep x) (0, y)).1

/-- A byte string cut into blocks of `n` bytes, the last one short. -/
def chunks (n : Nat) : Nat → Bytes → List Bytes
  | 0, _ => []
  | k + 1, b => if b.isEmpty then [] else b.take n :: chunks n k (b.drop n)

/-- GHASH over whole blocks from a state. -/
def ghash (h y : BitVec 128) (b : Bytes) : BitVec 128 :=
  (chunks 16 (b.length / 16 + 1) b).foldl (fun y c => gfMul (y ^^^ blockOf c) h) y

/-- The fixed digest key of R320: the bytes of the constant, little-endian, as a block. -/
def digestKey : BitVec 128 := blockOf (natLe 16 0x5A4E343030304C44B7E151639D2C47A1)

/-- One byte into a CRC-32C (Castagnoli), reflected. -/
def crc32cStep (c : W32) (b : Byte) : W32 :=
  (List.range 8).foldl (fun c _ => if c.getLsbD 0 then (c >>> 1) ^^^ 0x82F63B78 else c >>> 1) (c ^^^ b.zeroExtend 32)
/-- CRC-32C: initial value and final inversion all ones. -/
def crc32c (b : Bytes) : W32 := ~~~ (b.foldl crc32cStep 0xFFFFFFFF)

/-! ### SHAKE256 -/

/-- The bits of Keccak's round constants in order: the low bits of a feedback register of 8 bits with taps 0x71 (FIPS 202). -/
def keccakBits : Nat → BitVec 8 → List Bool
  | 0, _ => []
  | n + 1, r => r.getLsbD 0 :: keccakBits n (if r.getLsbD 7 then (r <<< 1) ^^^ 0x71 else r <<< 1)
/-- A round constant from its seven bits: bit `j` stands at place 2^j - 1. -/
def keccakConst (b : List Bool) : W64 :=
  (b.zipIdx).foldl (fun a e => if e.1 then a ||| (1#64 <<< (2 ^ e.2 - 1)) else a) 0
/-- The round constants of `n` rounds. -/
def keccakConsts : Nat → List Bool → List W64
  | 0, _ => []
  | n + 1, b => keccakConst (b.take 7) :: keccakConsts n (b.drop 7)
/-- The places (column, row) in the order in which the lanes are turned, each with its turn of (k + 1)(k + 2) / 2 bits. -/
def keccakTurns : Nat → Nat → Nat → Nat → List (Nat × Nat)
  | 0, _, _, _ => []
  | n + 1, k, x, y => (x + 5 * y, (k + 1) * (k + 2) / 2 % 64) :: keccakTurns n (k + 1) y ((2 * x + 3 * y) % 5)
/-- Lane `x` of row `y` of a state of 25 lanes. -/
def laneAt (a : List W64) (x y : Nat) : W64 := a.getD (x % 5 + 5 * (y % 5)) 0
/-- The parity of a column. -/
def parity (a : List W64) (x : Nat) : W64 := (List.range 5).foldl (fun p y => p ^^^ laneAt a x y) 0
/-- A state given lane by lane. -/
def lanes (f : Nat → Nat → W64) : List W64 := (List.range 5).flatMap fun y => (List.range 5).map fun x => f x y
/-- Every lane mixed with the parities of the columns beside it. -/
def keccakMix (a : List W64) : List W64 :=
  let p := (List.range 5).map (parity a)
  lanes fun x y => laneAt a x y ^^^ p.getD ((x + 4) % 5) 0 ^^^ (p.getD ((x + 1) % 5) 0).rotateLeft 1
/-- The lanes turned and moved: the lane that comes to (x, y) is that of ((x + 3 y) mod 5, x). -/
def keccakMove (turns : List (Nat × Nat)) (a : List W64) : List W64 :=
  let r := turns.foldl (fun a e => a.set e.1 ((a.getD e.1 0).rotateLeft e.2)) a
  lanes fun x y => laneAt r (x + 3 * y) x
/-- Every lane combined with the two after it in its row, and the round constant added to the first. -/
def keccakJoin (rc : W64) (a : List W64) : List W64 :=
  lanes fun x y => laneAt a x y ^^^ (~~~(laneAt a (x + 1) y) &&& laneAt a (x + 2) y) ^^^ (if x + y = 0 then rc else 0)
/-- Keccak-f[1600]. -/
def keccakF (a : List W64) : List W64 :=
  let turns := keccakTurns 24 0 1 0
  (keccakConsts 24 (keccakBits 168 1)).foldl (fun a rc => keccakJoin rc (keccakMove turns (keccakMix a))) a
/-- A 136-byte block absorbed. -/
def keccakAbsorb (a : List W64) (b : Bytes) : List W64 :=
  keccakF (a.zipIdx.map fun e => if e.2 < 17 then e.1 ^^^ BitVec.ofNat 64 (leNat (slice b (8 * e.2) 8)) else e.1)
/-- Output blocks of the sponge. -/
def keccakSqueeze : Nat → List W64 → Bytes
  | 0, _ => []
  | k + 1, a => ((a.take 17).flatMap fun l => natLe 8 l.toNat) ++ keccakSqueeze k (keccakF a)
/-- SHAKE256 of a string, `n` bytes. -/
def shake256 (m : Bytes) (n : Nat) : Bytes :=
  let padLen := 136 - (m.length + 1) % 136
  let z : Bytes := List.replicate (padLen % 136) 0
  let p := m ++ [0x1F] ++ z
  let p := p.set (p.length - 1) (byteAt p (p.length - 1) ||| 0x80)
  let a := (chunks 136 (p.length / 136 + 1) p).foldl keccakAbsorb (List.replicate 25 0)
  (keccakSqueeze (n / 136 + 1) a).take n

/-! ### AES-256-GCM -/

/-- Multiplication by x in GF(2^8) of AES. -/
def xtime (b : Byte) : Byte := if b.getLsbD 7 then (b <<< 1) ^^^ 0x1B else b <<< 1
/-- Product in GF(2^8) of AES. -/
def gmul8 (a b : Byte) : Byte :=
  ((List.range 8).foldl (fun (r : Byte × Byte) i => (if b.getLsbD i then r.1 ^^^ r.2 else r.1, xtime r.2)) (0, a)).1
/-- a^(2^k). -/
def gpow2 (a : Byte) : Nat → Byte
  | 0 => a
  | k + 1 => let x := gpow2 a k; gmul8 x x
/-- The inverse a^254; 0 for 0. -/
def ginv8 (a : Byte) : Byte := (List.range 7).foldl (fun r k => gmul8 r (gpow2 a (k + 1))) 1
/-- The S-box computed. -/
def sboxOf (a : Byte) : Byte :=
  let x := ginv8 a
  x ^^^ x.rotateLeft 1 ^^^ x.rotateLeft 2 ^^^ x.rotateLeft 3 ^^^ x.rotateLeft 4 ^^^ 0x63
/-- The key schedule of AES-256: word `i` from the words before it, newest first. -/
def aesKeyGo : Nat → Nat → Byte → List Bytes → List Bytes
  | 0, _, _, ws => ws
  | k + 1, i, rc, ws =>
    let prev := ws.headD []
    let back := ws.getD 7 []
    let t := if i % 8 = 0 then
        let r := (prev.drop 1 ++ prev.take 1).map sboxOf
        r.set 0 (byteAt r 0 ^^^ rc)
      else if i % 8 = 4 then prev.map sboxOf else prev
    aesKeyGo k (i + 1) (if i % 8 = 0 then xtime rc else rc) ((List.zipWith (· ^^^ ·) back t) :: ws)
/-- The fifteen round keys of AES-256. -/
def aesKeys (key : Bytes) : List Bytes :=
  let w := (chunks 4 8 (padTo key 32)).reverse
  (chunks 16 15 ((aesKeyGo 52 8 1 w).reverse.flatten))
/-- SubBytes and ShiftRows. -/
def aesSubShift (s : Bytes) : Bytes := (List.range 16).map fun i => sboxOf (byteAt s ((i + 4 * (i % 4)) % 16))
/-- MixColumns. -/
def aesMix (s : Bytes) : Bytes :=
  (List.range 16).map fun i =>
    let c := i / 4 * 4; let r := i % 4
    let b := fun k => byteAt s (c + (r + k) % 4)
    xtime (b 0) ^^^ (xtime (b 1) ^^^ b 1) ^^^ b 2 ^^^ b 3
/-- One block encrypted under AES-256. -/
def aesBlock (ks : List Bytes) (m : Bytes) : Bytes :=
  let x0 := List.zipWith (· ^^^ ·) m (ks.headD [])
  let x := ((ks.drop 1).take 13).foldl (fun s k => List.zipWith (· ^^^ ·) (aesMix (aesSubShift s)) k) x0
  List.zipWith (· ^^^ ·) (aesSubShift x) (ks.getD 14 [])
/-- The counter blocks from a 96-bit nonce. -/
def ctrBlock (nonce : Bytes) (i : Nat) : Bytes := padTo nonce 12 ++ (natLe 4 i).reverse
/-- CTR mode from counter 2 (GCM payload). -/
def aesCtr (ks : List Bytes) (nonce : Bytes) : Nat → List Bytes → Bytes
  | _, [] => []
  | i, c :: cs => List.zipWith (· ^^^ ·) c (aesBlock ks (ctrBlock nonce i)) ++ aesCtr ks nonce (i + 1) cs
/-- AES-256-GCM decryption of a payload (the keystream is the same both ways). -/
def gcmCrypt (key nonce payload : Bytes) : Bytes :=
  aesCtr (aesKeys key) nonce 2 (chunks 16 (payload.length / 16 + 1) payload)
/-- A string padded with zeros to whole blocks. -/
def pad16 (b : Bytes) : Bytes := padTo b ((b.length + 15) / 16 * 16)
/-- The AES-256-GCM tag of associated data and ciphertext. -/
def gcmTag (key nonce aad ct : Bytes) : Bytes :=
  let ks := aesKeys key
  let h := blockOf (aesBlock ks (List.replicate 16 0))
  let lens := (natLe 8 (8 * aad.length)).reverse ++ (natLe 8 (8 * ct.length)).reverse
  let y := ghash h 0 (pad16 aad ++ pad16 ct ++ lens)
  List.zipWith (· ^^^ ·) (blockBytes y) (aesBlock ks (ctrBlock nonce 1))

end Sys2Proof.Machine
end

