-- ==== Sys2Proof/Machine/Ed448.lean ====
section
/-! DEFINITION. Ed448 (RFC 8032) and X448 (RFC 7748), the signatures and key agreement that chapter 16 fixes: arithmetic modulo
2^448 - 2^224 - 1 on natural numbers. -/
namespace Sys2Proof.Machine

/-! ### The field -/

/-- The field's modulus. -/
def p448 : Nat := 2 ^ 448 - 2 ^ 224 - 1
/-- The order of the base point. -/
def q448 : Nat := 2 ^ 446 - 13818066809895115352007386748515426880336692474882178609894547503885
/-- A difference in the field. -/
def subF (a b : Nat) : Nat := (a + p448 - b) % p448
/-- A product in the field. -/
def mulF (a b : Nat) : Nat := a * b % p448
/-- A power in the field, over the lowest `n` bits of the exponent from the highest down. -/
def powF (a e : Nat) : Nat → Nat
  | 0 => 1
  | n + 1 =>
    let r := powF a (e / 2) n
    let r := mulF r r
    if e % 2 = 1 then mulF r a else r
/-- The inverse in the field; 0 of 0. -/
def invF (a : Nat) : Nat := powF a (p448 - 2) 448

/-! ### The curve x² + y² = 1 - 39081 x² y² -/

/-- A point in projective coordinates. -/
structure Pt448 where
  x : Nat
  y : Nat
  z : Nat
  deriving DecidableEq, Repr

/-- The neutral point. -/
def Pt448.zero : Pt448 := ⟨0, 1, 1⟩
/-- The base point. -/
def Pt448.base : Pt448 :=
  ⟨224580040295924300187604334099896036246789641632564134246125461686950415467406032909029192869357953282578032075146446173674602635247710,
   298819210078481492676017930443930673437544040154080242095928241372331506189835876003536878655418784733982303233503462500531545062832660, 1⟩
/-- The sum of two points (RFC 8032, 5.2.4), good for every pair. -/
def Pt448.add (u v : Pt448) : Pt448 :=
  let zz := mulF u.z v.z
  let b := mulF zz zz
  let c := mulF u.x v.x
  let d := mulF u.y v.y
  let e := mulF 39081 (mulF c d)
  let f := (b + e) % p448
  let g := subF b e
  let h := subF (mulF (u.x + u.y) (v.x + v.y)) ((c + d) % p448)
  ⟨mulF (mulF zz f) h, mulF (mulF zz g) (subF d c), mulF f g⟩
/-- A multiple of a point, over the lowest `n` bits of the factor. -/
def Pt448.mul (u : Pt448) (k : Nat) : Nat → Pt448
  | 0 => Pt448.zero
  | n + 1 =>
    let r := u.mul (k / 2) n
    let r := r.add r
    if k % 2 = 1 then r.add u else r
/-- Whether two points are the same. -/
def Pt448.same (u v : Pt448) : Bool :=
  decide (mulF u.x v.z = mulF v.x u.z) && decide (mulF u.y v.z = mulF v.y u.z)
/-- The 57 bytes of a point: y, and the low bit of x on top. -/
def Pt448.bytes (u : Pt448) : Bytes :=
  let i := invF u.z
  natLe 56 (mulF u.y i) ++ [if mulF u.x i % 2 = 1 then 0x80 else 0]
/-- The point that 57 bytes spell, if they spell one. -/
def Pt448.ofBytes (b : Bytes) : Option Pt448 :=
  let n := leNat (slice b 0 57)
  let y := n % 2 ^ 455
  let sign := n / 2 ^ 455
  if p448 ≤ y then none
  else
    let u := subF (mulF y y) 1
    let v := subF (subF 0 (mulF 39081 (mulF y y))) 1
    let u3 := mulF (mulF u u) u
    let v3 := mulF (mulF v v) v
    let x := mulF (mulF u3 v) (powF (mulF (mulF u3 (mulF u u)) v3) ((p448 - 3) / 4) 446)
    if mulF v (mulF x x) ≠ u then none
    else if decide (x = 0) && decide (sign = 1) then none
    else some ⟨if x % 2 = sign then x else p448 - x, y, 1⟩

/-! ### Ed448 -/

/-- The hash of Ed448 with an empty context: 114 bytes of SHAKE256 as a number. -/
def hash448 (b : Bytes) : Nat := leNat (shake256 ((ascii "SigEd448") ++ [0, 0] ++ b) 114)
/-- The scalar of a secret of 57 bytes, and the half of its hash that serves as prefix. -/
def expand448 (secret : Bytes) : Nat × Bytes :=
  let h := shake256 secret 114
  (leNat (slice h 0 56) % 2 ^ 447 / 4 * 4 + 2 ^ 447, slice h 57 57)
/-- The public key of a secret of 57 bytes. -/
def ed448Public (secret : Bytes) : Bytes := (Pt448.base.mul (expand448 secret).1 448).bytes
/-- The signature of a message under a secret. -/
def ed448Sign (secret msg : Bytes) : Bytes :=
  let k := expand448 secret
  let r := hash448 (k.2 ++ msg) % q448
  let rb := (Pt448.base.mul r 446).bytes
  let c := hash448 (rb ++ (Pt448.base.mul k.1 448).bytes ++ msg) % q448
  rb ++ natLe 57 ((r + c * k.1) % q448)
/-- Whether a signature of 114 bytes verifies: [4][S]B = [4]R + [4][k]A. -/
def ed448Verify (key msg sig : Bytes) : Bool :=
  let n := leNat (slice sig 57 57)
  match Pt448.ofBytes (slice sig 0 57), Pt448.ofBytes key with
  | some r, some a =>
    let k := hash448 (slice sig 0 57 ++ slice key 0 57 ++ msg) % q448
    let four := fun u : Pt448 => (u.add u).add (u.add u)
    decide (sig.length = 114) && decide (key.length = 57) && decide (n < q448) &&
      (four (Pt448.base.mul n 446)).same (four (r.add (a.mul k 446)))
  | _, _ => false

/-! ### X448 -/

/-- What a step of the ladder works on: two points of the Montgomery curve by x and z. -/
structure Ladder where
  x2 : Nat
  z2 : Nat
  x3 : Nat
  z3 : Nat

/-- The two points changed over. -/
def Ladder.swap (l : Ladder) (b : Bool) : Ladder := if b then ⟨l.x3, l.z3, l.x2, l.z2⟩ else l
/-- One step of the ladder for a bit of the scalar, on a point of coordinate `u` (RFC 7748, section 5). -/
def Ladder.step (u : Nat) (l : Ladder) (b : Bool) : Ladder :=
  let l := l.swap b
  let a := l.x2 + l.z2
  let m := subF l.x2 l.z2
  let aa := mulF a a
  let bb := mulF m m
  let e := subF aa bb
  let da := mulF (subF l.x3 l.z3) a
  let cb := mulF (l.x3 + l.z3) m
  let s := da + cb
  let d := subF da cb
  Ladder.swap ⟨mulF aa bb, mulF e (aa + 39081 * e), mulF s s, mulF u (mulF d d)⟩ b
/-- The ladder over `n` bits of the scalar from the highest down. -/
def Ladder.run (u k : Nat) : Nat → Ladder
  | 0 => ⟨1, 0, u, 1⟩
  | n + 1 => (Ladder.run u (k / 2) n).step u (decide (k % 2 = 1))
/-- X448: the shared secret of a secret and a public value, 56 bytes each. -/
def x448 (secret pub : Bytes) : Bytes :=
  let k := leNat (slice secret 0 56) % 2 ^ 447 / 4 * 4 + 2 ^ 447
  let l := Ladder.run (leNat (slice pub 0 56) % p448) k 448
  natLe 56 (mulF l.x2 (invF l.z2))

end Sys2Proof.Machine
end

