-- ==== Sys2Proof/Machine/Float.lean ====
section
/-! DEFINITION. Number formats and exact arithmetic: decoding of Table 5-3, the exact sums of R116, rounding to nearest even, and the
conversions of R139 and Table 6-2. -/
namespace Sys2Proof.Machine

/-- A decoded value: NaN, an infinity, or ±m·2^e exactly. -/
inductive FV where
  | nan
  | inf (neg : Bool)
  | fin (neg : Bool) (m : Nat) (e : Int)
  deriving DecidableEq, Repr

/-- A binary format: exponent and mantissa bits, bias, and what its top exponent means: 0 numbers only (MX), 1 one NaN (E4M3),
2 IEEE infinities and NaNs. -/
structure Fmt where
  eb : Nat
  mb : Nat
  bias : Nat
  top : Nat

/-- The binary formats of Tables 5-2 and 5-3 by code. -/
def fmtOf (c : Nat) : Option Fmt :=
  match c with
  | 0x1 | 0x3 => some ⟨4, 3, 7, 1⟩
  | 0x2 | 0x4 => some ⟨5, 2, 15, 2⟩
  | 0x5 => some ⟨2, 3, 1, 0⟩
  | 0x6 => some ⟨3, 2, 3, 0⟩
  | 0x7 => some ⟨2, 1, 1, 0⟩
  | 0xA => some ⟨8, 7, 127, 2⟩
  | 0xB => some ⟨5, 10, 15, 2⟩
  | 0xC => some ⟨8, 23, 127, 2⟩
  | _ => none

/-- Bits per element of a format code (Table 5-2). -/
def elemBits (c : Nat) : Nat :=
  match c with
  | 0x1 | 0x2 | 0x3 | 0x4 | 0x8 => 8
  | 0x5 | 0x6 => 6
  | 0x7 | 0x9 => 4
  | 0xA | 0xB => 16
  | _ => 32

/-- A binary encoding decoded at its exact value, subnormals included (R110). -/
def Fmt.decode (f : Fmt) (w : Nat) : FV :=
  let neg := bit w (f.eb + f.mb)
  let ex := bits w (f.eb + f.mb - 1) f.mb
  let fr := w % 2 ^ f.mb
  let top := 2 ^ f.eb - 1
  if f.top = 2 && ex = top then (if fr = 0 then .inf neg else .nan)
  else if f.top = 1 && ex = top && fr = 2 ^ f.mb - 1 then .nan
  else if ex = 0 then .fin neg fr (1 - (f.bias : Int) - f.mb)
  else .fin neg (2 ^ f.mb + fr) ((ex : Int) - f.bias - f.mb)

/-- A two's complement integer of `n` bits as an exact value. -/
def intFV (n w : Nat) : FV :=
  let v := w % 2 ^ n
  if 2 ^ (n - 1) ≤ v then .fin true (2 ^ n - v) 0 else .fin false v 0

/-- An element of format code `c` decoded (R110). -/
def decodeElem (c w : Nat) : FV :=
  match fmtOf c with
  | some f => f.decode w
  | none => intFV (elemBits c) w

/-- The units of exact sums: 2^-320. -/
def unitExp : Int := -320

/-- An exact value in units of 2^-320. -/
def FV.units : FV → Int
  | .fin neg m e => let v : Int := (m * 2 ^ (e - unitExp).toNat : Nat); if neg then -v else v
  | _ => 0

/-- Whether a value is negative in sign. -/
def FV.neg : FV → Bool
  | .nan => false
  | .inf n => n
  | .fin n _ _ => n
/-- Whether a value is a zero. -/
def FV.isZero : FV → Bool
  | .fin _ m _ => m = 0
  | _ => false
/-- Whether a value is NaN. -/
def FV.isNan : FV → Bool
  | .nan => true
  | _ => false
/-- Whether a value is finite. -/
def FV.isFin : FV → Bool
  | .fin _ _ _ => true
  | _ => false

/-- An exact value from units, with the sign a zero takes. -/
def ofUnits (v : Int) (negZero : Bool) : FV :=
  if v = 0 then .fin negZero 0 unitExp else .fin (decide (v < 0)) v.natAbs unitExp

/-- Exact product; infinity times zero is NaN (R116). -/
def FV.mul (a b : FV) : FV :=
  match a, b with
  | .nan, _ => .nan
  | _, .nan => .nan
  | .inf n, x => if x.isZero then .nan else .inf (n != x.neg)
  | x, .inf n => if x.isZero then .nan else .inf (n != x.neg)
  | .fin n m e, .fin k l f => .fin (n != k) (m * l) (e + f)

/-- Exact sum with the sign of zero of IEEE 754 under round to nearest. -/
def FV.add (a b : FV) : FV :=
  match a, b with
  | .nan, _ => .nan
  | _, .nan => .nan
  | .inf n, .inf k => if n = k then .inf n else .nan
  | .inf n, _ => .inf n
  | _, .inf n => .inf n
  | x, y => ofUnits (x.units + y.units) (x.isZero && y.isZero && x.neg && y.neg)

/-- A value negated. -/
def FV.negate : FV → FV
  | .nan => .nan
  | .inf n => .inf !n
  | .fin n m e => .fin (!n) m e

/-- Order of two numbers, neither NaN: whether a < b. -/
def FV.lt (a b : FV) : Bool :=
  match a, b with
  | .inf n, .inf k => n && !k
  | .inf n, _ => n
  | _, .inf k => !k
  | x, y => decide (x.units < y.units)

/-- Round m·2^e to nearest even with `p` bits of precision and no bit below 2^qmin: integer and exponent. -/
def rne (p : Nat) (qmin : Int) (m : Nat) (e : Int) : Nat × Int :=
  let len : Int := if m = 0 then 0 else (Nat.log2 m + 1 : Nat)
  let lsb := max (e + len - p) qmin
  let q := if lsb ≤ e then m * 2 ^ (e - lsb).toNat
    else
      let sh := (lsb - e).toNat
      let q0 := m / 2 ^ sh
      let r := m % 2 ^ sh
      let half := 2 ^ (sh - 1)
      if r > half || (r == half && q0 % 2 == 1) then q0 + 1 else q0
  if q = 2 ^ p then (2 ^ (p - 1), lsb + 1) else (q, lsb)

/-- The exponent field of the rounded value; at or above 2^eb - 1 it has overflowed. -/
def Fmt.expField (f : Fmt) (q : Nat) (lsb : Int) : Int := if q < 2 ^ f.mb then 0 else lsb + f.mb + f.bias

/-- A value encoded in an IEEE-style format with round to nearest even, overflow to infinity, subnormals kept, canonical NaN
(Table 6-2, FP32, BF16, FP16). -/
def Fmt.encode (f : Fmt) (v : FV) : Nat :=
  let top := 2 ^ f.eb - 1
  let sgn := fun n : Bool => if n then 2 ^ (f.eb + f.mb) else 0
  match v with
  | .nan => top * 2 ^ f.mb + 2 ^ (f.mb - 1)
  | .inf n => sgn n + top * 2 ^ f.mb
  | .fin n m e =>
    let r := rne (f.mb + 1) (1 - (f.bias : Int) - f.mb) m e
    let x := f.expField r.1 r.2
    if (top : Int) ≤ x then sgn n + top * 2 ^ f.mb
    else if r.1 < 2 ^ f.mb then sgn n + r.1
    else sgn n + x.toNat * 2 ^ f.mb + (r.1 - 2 ^ f.mb)

/-- FP32, BF16 and FP16. -/
def fmt32 : Fmt := ⟨8, 23, 127, 2⟩
def fmtB16 : Fmt := ⟨8, 7, 127, 2⟩
def fmtH16 : Fmt := ⟨5, 10, 15, 2⟩

/-- An FP32 word decoded. -/
def f32 (w : W32) : FV := fmt32.decode w.toNat
/-- A value rounded once to FP32. -/
def toF32 (v : FV) : W32 := BitVec.ofNat 32 (fmt32.encode v)
/-- The canonical NaN of FP32. -/
def nan32 : W32 := 0x7FC00000
/-- A BF16 half decoded. -/
def b16 (w : Nat) : FV := fmtB16.decode w

/-- An FP8 encoding, R139: below the smallest normal a zero of the same sign, overflow and infinity saturate, canonical NaN. -/
def encodeFp8 (e4m3 : Bool) (v : FV) : Nat :=
  let f : Fmt := if e4m3 then ⟨4, 3, 7, 1⟩ else ⟨5, 2, 15, 2⟩
  let maxEnc := if e4m3 then 0x7E else 0x7B
  let sgn := fun n : Bool => if n then 128 else 0
  match v with
  | .nan => if e4m3 then 0x7F else 0x7E
  | .inf n => sgn n + maxEnc
  | .fin n m e =>
    if FV.lt (.fin false m e) (.fin false 1 (1 - (f.bias : Int))) then sgn n
    else
      let r := rne (f.mb + 1) (1 - (f.bias : Int) - f.mb) m e
      let x := f.expField r.1 r.2
      let enc := x.toNat * 2 ^ f.mb + (r.1 - 2 ^ f.mb)
      sgn n + min enc maxEnc

/-- A value rounded to nearest even to an integer, saturated to [lo, hi]; NaN gives 0 (Table 6-2, VFTOI). -/
def toIntSat (lo hi : Int) (v : FV) : Int :=
  match v with
  | .nan => 0
  | .inf n => if n then lo else hi
  | .fin n m e =>
    let q := if 0 ≤ e then m * 2 ^ e.toNat
      else
        let sh := (-e).toNat
        let q0 := m / 2 ^ sh
        let r := m % 2 ^ sh
        let half := 2 ^ (sh - 1)
        if r > half || (r == half && q0 % 2 == 1) then q0 + 1 else q0
    let x : Int := if n then -(q : Int) else q
    max lo (min hi x)

/-- A two's complement encoding of `n` bits. -/
def ofIntN (n : Nat) (v : Int) : Nat := (v % (2 ^ n : Nat)).toNat

/-- A value stored in a destination format of the VXE (R139, R144): FP32, BF16, FP16, FP8 E4M3, E5M2, INT8; a NaN as
the canonical NaN of the format (Table 6-2); raw words unchanged. -/
def encodeDest (c : Nat) (w : W32) : Nat :=
  match c with
  | 0xA => fmtB16.encode (f32 w)
  | 0xB => fmtH16.encode (f32 w)
  | 0x1 => encodeFp8 true (f32 w)
  | 0x2 => encodeFp8 false (f32 w)
  | 0x8 => ofIntN 8 (toIntSat (-128) 127 (f32 w))
  | 0xC => (match f32 w with | .nan => 0x7FC00000 | _ => w.toNat)
  | _ => w.toNat

/-- A pad element of a source format widened into an FP32 lane; FP32 and raw words load unchanged (R139, R144). -/
def widen (c w : Nat) : W32 :=
  match c with
  | 0x0 | 0xC => BitVec.ofNat 32 w
  | _ => toF32 (decodeElem c w)

/-! ### Exact sums of R116 -/

/-- No addend. -/
def XSum.zero : XSum := ⟨false, false, false, 0⟩
/-- One more addend. -/
def XSum.add (x : XSum) (v : FV) : XSum :=
  match v with
  | .nan => { x with nan := true }
  | .inf n => if n then { x with ninf := true } else { x with pinf := true }
  | v => { x with num := x.num + v.units }
/-- The result of R116: NaN, an infinity, +0.0 for an exact zero, or the sum rounded once. -/
def XSum.result (x : XSum) : W32 :=
  if x.nan || (x.pinf && x.ninf) then nan32
  else if x.pinf then toF32 (.inf false)
  else if x.ninf then toF32 (.inf true)
  else toF32 (ofUnits x.num false)

/-! ### FP32 operations of the VXE (R138, R140) -/

def fadd (a b : W32) : W32 := toF32 ((f32 a).add (f32 b))
def fsub (a b : W32) : W32 := toF32 ((f32 a).add (f32 b).negate)
def fmul (a b : W32) : W32 := toF32 ((f32 a).mul (f32 b))
/-- Fused multiply-add, one rounding. -/
def ffma (a b c : W32) : W32 := toF32 (((f32 a).mul (f32 b)).add (f32 c))
/-- Whether a word is an FP32 NaN. -/
def isNan32 (a : W32) : Bool := (f32 a).isNan
/-- Order of VMIN and VMAX: −0 below +0 (R140). -/
def ordLt (a b : W32) : Bool :=
  (f32 a).lt (f32 b) || ((f32 a).isZero && (f32 b).isZero && (f32 a).neg && !(f32 b).neg)
def fmin (a b : W32) : W32 := if isNan32 a || isNan32 b then nan32 else if ordLt b a then b else a
def fmax (a b : W32) : W32 := if isNan32 a || isNan32 b then nan32 else if ordLt a b then b else a
/-- Equality of numbers: −0 = +0 (R140). -/
def feq (a b : W32) : Bool :=
  !(isNan32 a || isNan32 b) && !(f32 a).lt (f32 b) && !(f32 b).lt (f32 a)
/-- The conditions of VCMP (Table 6-6): 0 =, 1 ≠, 2 <, 3 ≤, 4 >, 5 ≥; a NaN makes only ≠ true. -/
def fcmp (c : Nat) (a b : W32) : Bool :=
  let n := isNan32 a || isNan32 b
  match c with
  | 0 => feq a b
  | 1 => !feq a b
  | 2 => !n && (f32 a).lt (f32 b)
  | 3 => !n && !(f32 b).lt (f32 a)
  | 4 => !n && (f32 b).lt (f32 a)
  | _ => !n && !(f32 a).lt (f32 b)

/-- The integer square root, bit by bit: the largest r with r² ≤ n below 2^k, from `r` upwards. -/
def isqrtGo (n : Nat) : Nat → Nat → Nat
  | 0, r => r
  | k + 1, r => let c := r + 2 ^ k; isqrtGo n k (if c * c ≤ n then c else r)

/-- SQRT of a non-negative finite value, correctly rounded (R141). -/
def sqrt32 (m : Nat) (e : Int) : W32 :=
  let k : Nat := if (e % 2 = 0) then 120 else 121
  let n := m * 2 ^ k
  let r := isqrtGo n 100 0
  let s := 2 * r + if r * r = n then 0 else 1
  toF32 (.fin false s ((e - k) / 2 - 1))

/-- A transcendental function of a word, R141: NaN gives the canonical NaN, special inputs Table 6-3, SQRT computed, the rest the
function library of table set 1. -/
def vtr (fn : Nat) (a : W32) : W32 :=
  let one : W32 := 0x3F800000
  let pinf : W32 := 0x7F800000
  let ninf : W32 := 0xFF800000
  let lib := let r := Config.vtr fn a; if isNan32 r then nan32 else r
  match f32 a with
  | .nan => nan32
  | .inf true => match fn with
    | 0 => 0 | 2 => 0x80000000 | 5 => 0xBF800000 | 6 => 0 | 7 => 0xBF800000 | _ => nan32
  | .inf false => match fn with
    | 0 => pinf | 1 => pinf | 2 => 0 | 3 => 0 | 4 => pinf | _ => one
  | .fin neg m e =>
    if m = 0 then
      match fn with
      | 0 => one | 1 => ninf | 2 => if neg then ninf else pinf | 3 => if neg then ninf else pinf | 6 => 0x3F000000 | _ => a
    else if neg && (fn == 1 || fn == 3 || fn == 4) then nan32
    else if fn = 4 then sqrt32 m e
    else lib

end Sys2Proof.Machine
end

