-- ==== Sys2Proof/Machine/Late.lean ====
section
/-! DEFINITION. What lands later than its issue: tower lines (chapter 03), scheduled units on links (R174, R175), the write-backs of
the VXE and the XFE with the faults they can raise (R146, R156, R215). -/
namespace Sys2Proof.Machine

/-! ### Towers (R58 to R70) -/

/-- Lines of a layer of 1.5 GiB. -/
def layerLines : Nat := 25165824
/-- The suspect code of a tower layer: kind 3, 4 × region + physical layer (R67). -/
def culLayer (r p : Nat) : Nat := 0x3000 + 4 * r + p
/-- A tower. -/
def State.tower (s : State) (r : Nat) : Tower := sget Tower.init s.towers r
/-- A tower changed. -/
def State.modTower (s : State) (r : Nat) (f : Tower → Tower) : State :=
  { s with towers := sput Tower.init s.towers r (f (s.tower r)) }
/-- The present physical layers of a tower, ascending (R60). -/
def State.layers (s : State) (r : Nat) : List Nat := (List.range 4).filter fun p => bit (s.fld .TWR_CFG [r] F.TWR_CFG_PRES) p
/-- Lines of a tower's capacity (R60). -/
def State.twrLines (s : State) (r : Nat) : Nat := (s.layers r).length * layerLines
/-- The physical line of a logical line; none beyond capacity (R59, R60). -/
def State.physLine (s : State) (r line : Nat) : Option Nat :=
  ((s.layers r)[line / layerLines]?).map fun p => p * layerLines + line % layerLines
/-- The logical line of a physical line. -/
def State.logLine (s : State) (r phys : Nat) : Nat :=
  ((s.layers r).findIdx fun p => p = phys / layerLines) * layerLines + phys % layerLines
/-- The key of a physical line's symbol errors. -/
def symKey (r phys : Nat) : Nat := r * 2 ^ 27 + phys
/-- Block, half and physical layer of a line in the layout of bits [63:35] of TWR_ERR and TWR_CE_LAST. -/
def State.lineCode (s : State) (r phys : Nat) : Nat :=
  let l := s.logLine r phys
  l / 2 * 2 ^ 38 + l % 2 * 2 ^ 37 + phys / layerLines * 2 ^ 35

/-- The CE count of a physical layer. -/
def ceFld (p : Nat) : Fld :=
  match p with | 0 => F.TWR_CE_CNT_CE0 | 1 => F.TWR_CE_CNT_CE1 | 2 => F.TWR_CE_CNT_CE2 | _ => F.TWR_CE_CNT_CE3

/-- A correction in a physical layer for the lifetime log and the criterion of Table 17-4: 65,536 of them within 24 h mark the layer. -/
def State.ceCount (s : State) (r p : Nat) : State :=
  let k := 4 * r + p
  let l := s.wt :: ((sget [] s.ceTimes k).filter fun w => decide (s.wt < w + 24 * 3600000000000 * 256))
  let s := { s.lifeAdd (0x60 + k) 1 with ceTimes := sput [] s.ceTimes k l }
  if decide (65536 ≤ l.length) && !s.layerMarks.contains k then
    { s with layerMarks := s.layerMarks ++ [k], ceCases := s.ceCases ++ [k] }
  else s

/-- A corrected read, R66: CE, its count, TWR_CE_LAST; a tile-port or host read puts the line into the fix queue. -/
def State.twrCorrected (s : State) (r phys sym src : Nat) : State :=
  let s := ((s.ceCount r (phys / layerLines)).setFld .TWR_ERR [r] F.TWR_ERR_CE 1).incSat .TWR_CE_CNT [r] (ceFld (phys / layerLines)) 1
  let s := s.setReg .TWR_CE_LAST [r] (BitVec.ofNat 64 (s.lineCode r phys + sym * 2 ^ 24))
  let t := s.tower r
  if src < 2 && decide (t.fixq.length < 8) && !t.fixq.contains phys then s.modTower r fun t => { t with fixq := t.fixq ++ [phys] } else s

/-- An uncorrectable line, R67 R74: UE, its count, the capture, the tower's own report. -/
def State.twrUncorrectable (s : State) (r phys src tile : Nat) : State :=
  let code := s.lineCode r phys + src * 2 ^ 30
  let w := s.reg .TWR_ERR [r]
  let w := if F.TWR_ERR_UE.get w = 0 then
      BitVec.ofNat 64 (code + (if src = 0 then tile else 0) * 2 ^ 19 + w.toNat % 8)
    else w
  let s := ((s.setReg .TWR_ERR [r] w).setFld .TWR_ERR [r] F.TWR_ERR_UE 1).incSat .TWR_CNT [r] F.TWR_CNT_UE_CNT 1
  s.sendReport (s.mkReport (1174 + r) 0x58 (culLayer r (phys / layerLines)) culNone (natLe 8 code))

/-- A read of a physical line with decoding (R65 to R67): source 0 tile port, 1 host, 2 scrubber, 3 fix queue. `none` where it is
uncorrectable. The fix queue's corrected read counts nothing. -/
def State.twrRead (s : State) (r phys src tile : Nat) : Option Bytes × State :=
  let b := s.bytes (twrAddr r (64 * phys)) 64
  match sget [] s.symErr (symKey r phys) with
  | [] => (some b, s)
  | [e] => (some b, if src = 3 then s else s.twrCorrected r phys e src)
  | _ => (none, s.twrUncorrectable r phys src tile)

/-- The fc of a region's domain; none where no domain clocks it. -/
def State.regFc (s : State) (r : Nat) : Option Nat :=
  match s.polderOf r with
  | some d => if (s.dom d).formed then some (s.dom d).fc else none
  | none => none
/-- A corrected line written back: its stored symbols are right again, SCRUB_FIX_CNT counts (R69, R70). -/
def State.writeBack (s : State) (r phys : Nat) : State :=
  { s with symErr := sput [] s.symErr (symKey r phys) [] }.incSat .TWR_CNT [r] F.TWR_CNT_SCRUB_FIX_CNT 1
/-- A pending write-back made: the line and, of the fix queue, its entry (R70). -/
def State.wbMake (s : State) (r : Nat) (w : Nat × Nat × Bool) : State :=
  (s.modTower r fun t => { t with wb := t.wb.erase w, fixq := if w.2.2 then t.fixq.erase w.2.1 else t.fixq }).writeBack r w.2.1
/-- The pending write-backs of a line cancelled by another write of it (R70); the fix queue has no more to do with it. -/
def State.wbCancel (s : State) (r phys : Nat) : State :=
  if (s.tower r).wb.any fun w => decide (w.2.1 = phys) then
    s.modTower r fun t => { t with
      wb := t.wb.filter fun w => decide (w.2.1 ≠ phys)
      fixq := if t.wb.any fun w => decide (w.2.1 = phys) && w.2.2 then t.fixq.erase phys else t.fixq }
  else s
/-- The write-backs whose reserved slots are past have been made. -/
def State.wbPass (s : State) : State :=
  s.towers.foldl (fun a e => match a.regFc e.1 with
    | some fc => (e.2.wb.filter fun w => decide (w.1 < fc)).foldl (fun a w => a.wbMake e.1 w) a
    | none => a) s
/-- A whole line written with fresh check symbols; pending write-backs of it are cancelled (R70). -/
def State.twrStore (s : State) (r phys : Nat) (b : Bytes) : State :=
  let s := (s.wbCancel r phys).rewrite (twrAddr r (64 * phys) / 64) (decide (1 < (sget [] s.symErr (symKey r phys)).length))
  { s.setBytes (twrAddr r (64 * phys)) b with symErr := sput [] s.symErr (symKey r phys) [] }

/-- A line written by a tile port or the host, which consumes an injection armed on it (R75). -/
def State.twrWrite (s : State) (r phys : Nat) (b : Bytes) : State :=
  let s := s.twrStore r phys b
  let i := s.reg .TWR_INJ [r]
  if F.TWR_INJ_ARM.get i = 1 && decide (s.physLine r (F.TWR_INJ_BLOCK.get i * 2 + F.TWR_INJ_HALF.get i) = some phys) then
    let x := F.TWR_INJ_SYMA.get i; let y := F.TWR_INJ_SYMB.get i
    let e := if F.TWR_INJ_TWO.get i = 1 then (if x = y then [] else [x, y]) else [x]
    { s.setReg .TWR_INJ [r] 0 with symErr := sput [] s.symErr (symKey r phys) e }
  else s

/-- The first usable tower slot at or after a fc (R62). -/
def slotFrom (f : Nat) : Nat := if f % 16 = 15 then f + 1 else f

/-- The vault of a block claimed by a tile port in fc `fc`, R64: where another port holds it, which the order of the tiles makes one of a
lower index, this one waits, VSLIP_CNT counts each fc up to its next usable slot, the segment is untimed. Answers whether it waits. -/
def State.vaultClaim (s : State) (t block fc : Nat) : Bool × State :=
  let r := regionOf t
  let v := block % 48
  let now := (s.tower r).claims.filter fun c => decide (c.1 = fc)
  if now.any fun c => decide (c.2.1 = v) && decide (c.2.2 ≠ t) then
    (true, (s.incSat .TWR_CNT [r] F.TWR_CNT_VSLIP_CNT (slotFrom (fc + 1) - fc)).markUntimed t)
  else (false, s.modTower r fun x => { x with claims := (fc, v, t) :: now })

/-! ### Segment block and scheduled hops (R174, R175) -/

/-- SEG_FLT records a segment fault with the capture of R181: code, flag, direction. -/
def Tile.segRecord (t : Tile) (fc code dir : Nat) (f : Fld) : Tile :=
  let w := t.reg .SEG_FLT []
  let w := if w.toNat % 16 = 0 then
      F.SEG_FLT_FC.set (F.SEG_FLT_DIR.set (F.SEG_FLT_CODE.set w code) dir) (fc % 65536)
    else w
  (t.setReg .SEG_FLT [] w).setFld .SEG_FLT [] f 1

/-- A fault of the segment block (unit kind 4): recorded, reported, the segment aborts (R175, R165). -/
def State.segBlockFault (s : State) (t code dir : Nat) (f : Fld) : State :=
  let fc := s.fc t
  let s := s.modTile t fun x => x.segRecord fc code dir f
  s.segFault t (s.mkReport t (0x40 + code) (culTile t) culNone (natLe 8 (fc % 65536 * 2 ^ 48 + dir * 2 ^ 42 + code * 2 ^ 32)))


/-- Everything queued or in flight in the XFE after fc `fc` discarded (R133, R169, R175, R215, R430): what falls in that fc or before stands. -/
def Tile.xfeClear (stop : Bool) (fc : Nat) (t : Tile) : Tile :=
  { t with
    late := t.late.filter fun l => decide (l.unit = 3) || decide (l.due ≤ fc)
    awaitA := if stop then 2 :: t.awaitA else t.awaitA
    xfq := []
    xfe := { t.xfe with run := [], stopped := stop, nextBegin := 0, free := [], bad := none, halt := false } }

/-- XFE_FLT flag of a fault code (Table 9-15). -/
def xfeFlag (code : Nat) : Fld :=
  match code with
  | 1 => F.XFE_FLT_ILL | 2 => F.XFE_FLT_BND | 3 => F.XFE_FLT_LIVE | 5 => F.XFE_FLT_ACRC | 6 => F.XFE_FLT_PCRC | _ => F.XFE_FLT_TUE

/-- XFE_FLT records a fault; THREAD, OPC and CODE are those of the first. -/
def Tile.xfeRecord (t : Tile) (q : QCmd) (code : Nat) : Tile :=
  let opc := q.cmd.toNat / 2 ^ 124
  let w := t.reg .XFE_FLT []
  let w := if w.toNat % 64 = 0 then F.XFE_FLT_THREAD.set (F.XFE_FLT_OPC.set (F.XFE_FLT_CODE.set w code) opc) q.th else w
  ((t.setReg .XFE_FLT [] w).setFld .XFE_FLT [] (xfeFlag code) 1).incSat .XFE_CNT [] F.XFE_CNT_FLT_CNT 1

/-- An XFE fault, R215: recorded and reported with its suspects, the rest is discarded, the XFE stops, the segment aborts. -/
def State.xfeFault (s : State) (t : Nat) (q : QCmd) (code c0 c1 : Nat) : State :=
  let fc := s.fc t
  let s := s.modTile t fun x => (x.xfeRecord q code).xfeClear x.segment.isSome fc
  s.segFault t (s.mkReport t (0x30 + code) c0 c1
    (natLe 8 (q.th * 2 ^ 48 + q.cmd.toNat / 2 ^ 124 * 2 ^ 44 + code * 2 ^ 32 + 2 ^ (xfeFlag code).lo)))
/-- A fault of an XFE step in this fc, raised once the fc's writes have landed; the first of a fc is the one raised (R133, R215). -/
def Tile.xfeBad (t : Tile) (q : QCmd) (code c0 c1 : Nat) : Tile :=
  { t with xfe := { t.xfe with bad := t.xfe.bad.orElse fun _ => some (q, code, c0, c1) } }

/-- The direction of a unit's next link at a tile (0 N, 1 E, 2 S, 3 W); none at its destination (R212). -/
def HopUnit.dirAt (u : HopUnit) (t : Nat) : Option Nat :=
  let dx := tileX u.dest; let dy := tileY u.dest
  let x := if dx = tileX t then none else some (if tileX t < dx then 1 else 3)
  let y := if dy = tileY t then none else some (if tileY t < dy then 2 else 0)
  if u.yx then y.orElse fun _ => x else x.orElse fun _ => y
/-- The tile beyond a link. -/
def neighbour (t dir : Nat) : Nat := match dir with | 0 => t - 48 | 1 => t + 1 | 2 => t + 48 | _ => t - 1
/-- The latency of a crossing (Table 7-4). -/
def hopLatency (a b : Nat) : Nat :=
  if regionOf a = regionOf b then 2 else if halfOf (regionOf a) = halfOf (regionOf b) then 4 else 6
/-- Whether a link carries scheduled units: no dike between the two tiles, no seam in Split mode (R174, R213). -/
def State.linkOn (s : State) (a b : Nat) : Bool :=
  (s.tilePolder a).isSome && decide (s.tilePolder a = s.tilePolder b) &&
    (decide (halfOf (regionOf a) = halfOf (regionOf b)) || decide (s.fld .SEAM_STAT [] F.SEAM_STAT_MODEA = 0))

/-- The region distance h of a wave: columns and rows apart, one more across the seam (R219). -/
def regionDist (a b : Nat) : Nat :=
  let p := regionRC a; let q := regionRC b
  (max p.1 q.1 - min p.1 q.1) + (max p.2 q.2 - min p.2 q.2) + if halfOf a = halfOf b then 0 else 1

/-- By how many half periods the stretches of a region before a fc have put that fc off (R218, R219), those of waves on their way to it
included. -/
def State.lag (s : State) (r fc : Nat) : Nat :=
  let w := fun two : Bool => if two then 2 else 1
  ((s.stretch.filter fun x => decide (x.region = r) && decide (x.fc < fc)).map fun x => w x.two).foldl (· + ·) 0 +
    ((s.waves.filter fun x => decide (x.1 = r) && decide (x.2.fc + regionDist x.2.origin r < fc)).map fun x => w x.2.two).foldl (· + ·) 0

/-- Whether a boundary buffer finds the sender of a unit lagging by 1.5 periods or more, by 3.5 at the seam (R217, R220): by stretches that have
not met yet, or by a clock fault. -/
def State.skewed (s : State) (h : HopFly) : Bool :=
  let a := regionOf h.src; let b := regionOf h.tile
  let sent := h.due - hopLatency h.src h.tile
  decide (a ≠ b) && (h.lag || decide (s.lag b sent + (if halfOf a = halfOf b then 3 else 7) ≤ s.lag a sent))

/-- A unit departs from a tile in a fc, passing or driven by an HSEND (`own`) (R174, R175, R213): a link claimed already in this fc, or
disabled, is HOP_COLLISION at this tile; the unit is lost and an HSEND stops the XFE. Passes claim before the tile's own departures, so an
HSEND whose link a pass uses sends nothing (R175). -/
def State.hopOut (s : State) (t : Nat) (u : HopUnit) (fc : Nat) (own : Bool) : State :=
  match u.dirAt t with
  | none => s
  | some d =>
    let n := neighbour t d
    if s.linkOn t n && !(s.tile t).links.contains d then
      let s := s.modTile t fun x => { x with links := d :: x.links }
      { s with hops := s.hops ++ [⟨u, t, n, (d + 2) % 4, fc + hopLatency t n, false⟩] }
    else
      let s := s.modTile t fun x => { x with xfe := { x.xfe with halt := x.xfe.halt || own } }
      s.segBlockFault t 2 d F.SEG_FLT_COLL

/-! ### The VXE's faults (R156, R157) -/

/-- A vector register (R136). -/
def Vxe.vec (x : Vxe) (n : Nat) : List W32 := sget (List.replicate 128 0) x.v n
/-- A mask register; m0 reads all ones (R136). -/
def Vxe.mask (x : Vxe) (n : Nat) : BitVec 128 := if n = 0 then BitVec.allOnes 128 else sget (BitVec.allOnes 128) x.m n
/-- Lanes of a vector register written. -/
def Vxe.setVec (x : Vxe) (n : Nat) (lanes : BitVec 128) (vals : List W32) : Vxe :=
  let w := ((x.vec n).zip vals).zipIdx.map fun e => if lanes.getLsbD e.2 then e.1.2 else e.1.1
  { x with v := sput (List.replicate 128 0) x.v n w }
/-- Lanes of a mask register written; writes to m0 are discarded. -/
def Vxe.setMask (x : Vxe) (n : Nat) (lanes vals : BitVec 128) : Vxe :=
  if n = 0 then x else { x with m := sput (BitVec.allOnes 128) x.m n ((x.mask n &&& ~~~lanes) ||| (vals &&& lanes)) }

/-- The VXE in a tile changed. -/
def Tile.modVxe (t : Tile) (f : Vxe → Vxe) : Tile := { t with vxe := f t.vxe }

/-- VXE_FLT flag of a fault code (Table 6-10). -/
def vxeFlag (code : Nat) : Fld :=
  match code with
  | 1 => F.VXE_FLT_ILL | 2 => F.VXE_FLT_BND | 3 => F.VXE_FLT_FMT | 4 => F.VXE_FLT_OVR | 5 => F.VXE_FLT_UND | 6 => F.VXE_FLT_PCRC
  | _ => F.VXE_FLT_LIVE

/-- VXE_FLT records a fault with the capture of R157. -/
def Tile.vxeRecord (t : Tile) (q : QCmd) (code : Nat) : Tile :=
  let w := t.reg .VXE_FLT []
  let w := if w.toNat % 128 = 0 then
      F.VXE_FLT_THREAD.set (F.VXE_FLT_OP.set (F.VXE_FLT_CODE.set w code) (q.cmd.toNat / 2 ^ 120)) q.th
    else w
  ((t.setReg .VXE_FLT [] w).setFld .VXE_FLT [] (vxeFlag code) 1).incSat .VXE_CNT [] F.VXE_CNT_FLT_CNT 1

/-- The VXE after a fault of a command whose faulting step issued in fc `iss`: steps issued before it complete their writes, all else is
discarded, an open digest is closed (R156). The issue interval of what was discarded delays no later begin (DESIGN CHOICE, log 62: R146 does
not say whether it does). -/
def Tile.vxeClear (stop : Bool) (q : QCmd) (iss : Nat) (t : Tile) : Tile :=
  { t with
    late := t.late.filter fun l => decide (l.unit ≠ 3) || decide (l.iss < iss)
    awaitA := if stop then 1 :: t.awaitA else t.awaitA
    vxq := []
    vxe := { t.vxe with run := t.vxe.run.takeWhile fun r => decide (r.q ≠ q), stopped := stop, digOpen := false, free := 0 } }

/-- A VXE fault of a step of fc `iss`, R156. -/
def State.vxeFault (s : State) (t : Nat) (q : QCmd) (code iss : Nat) : State :=
  let s := s.modTile t fun x => (x.vxeRecord q code).vxeClear x.segment.isSome q iss
  s.segFault t (s.mkReport t (0x20 + code) (culTile t) culNone
    (natLe 8 (q.th * 2 ^ 48 + q.cmd.toNat / 2 ^ 120 * 2 ^ 40 + code * 2 ^ 32 + 2 ^ (code - 1))))

/-! ### Late writes to the pad -/

/-- Bytes of a line merged with what stands there by byte enables (R30, R149). -/
def mergeBytes (old new : Bytes) (en : BitVec 64) : Bytes :=
  (List.range 64).map fun i => if en.getLsbD i then byteAt new i else byteAt old i

/-- A line written whole, or merged by byte enables with its check (R30). -/
def State.padMerge (s : State) (t line : Nat) (b : Bytes) (en : BitVec 64) (unit th : Nat) : PadRes Unit :=
  if en = BitVec.allOnes 64 then s.padPut t (64 * line) b unit th
  else if (s.tile t).liveLine line then .live (s.modTile t fun x => x.padEvent F.PAD_ERR_LIVE line unit th)
  else match s.padGet t (64 * line) 64 unit th with
    | .ok old s => s.padPut t (64 * line) (mergeBytes old b en) unit th
    | .crc s => .crc s
    | .live s => .live s

/-- Why lines may not be written in one fc, in which case none of them is: one lies in the active code bank (R54; `true`), or fails its
check in a merge (R30), the pad having made its own record of every such line. -/
def State.writeBad (s : State) (t unit th : Nat) (ls : List (Nat × Bytes × BitVec 64)) : Option Bool × State :=
  match ls.find? fun l => (s.tile t).liveLine l.1 with
  | some l => (some true, s.modTile t fun x => x.padEvent F.PAD_ERR_LIVE l.1 unit th)
  | none =>
    match ls.filter fun l => decide (l.2.2 ≠ BitVec.allOnes 64) && !s.lineOk t l.1 with
    | [] => (none, s)
    | bad => (some false, bad.foldl (fun s l => s.padCrcFail t l.1 unit th) s)

/-- Lines written by a scheduled unit in this fc, each in a slot of its bank: the lines left over, whose banks are taken (R26, R28). -/
def State.writeLines (t unit th : Nat) : List (Nat × Bytes × BitVec 64) → State → List (Nat × Bytes × BitVec 64) × State
  | [], s => ([], s)
  | l :: ls, s =>
    if (s.tile t).taken (l.1 / 1024) then
      let r := State.writeLines t unit th ls s
      (l :: r.1, r.2)
    else
      let s := s.modTile t fun x => x.grab (l.1 / 1024) l.1 unit false
      State.writeLines t unit th ls (match s.padMerge t l.1 l.2.1 l.2.2 unit th with | .ok _ s => s | .crc s => s | .live s => s)

/-- A late effect put behind those due no later. -/
def lateInsert (l : Late) : List Late → List Late
  | [] => [l]
  | m :: ms => if m.due ≤ l.due then m :: lateInsert l ms else l :: m :: ms

/-- A late effect of a tile added. -/
def Tile.addLate (t : Tile) (l : Late) : Tile := { t with late := lateInsert l t.late }

/-- A late effect of a tile taken out. -/
def Tile.dropLate (t : Tile) (l : Late) : Tile := { t with late := t.late.erase l }

/-- The late effects of a tile that are due by fc `fc` and satisfy `p`, oldest first. -/
def Tile.ripe (t : Tile) (fc : Nat) (p : Late → Bool) : List Late := t.late.filter fun l => decide (l.due ≤ fc) && p l

end Sys2Proof.Machine
end

