-- ==== Sys2Proof/Machine/Mxe.lean ====
section
/-! DEFINITION. The matrix engine and the expander (chapters 05 and 08): what LOADW, STREAM, DRAIN, their rows and their completions do in
the fc they fall in. -/
namespace Sys2Proof.Machine

/-- Bits of a queued command's word 0. -/
def QCmd.w0 (q : QCmd) (hi lo : Nat) : Nat := bits (q.cmd.toNat % 2 ^ 64) hi lo
/-- Bits of a queued command's word 1. -/
def QCmd.w1 (q : QCmd) (hi lo : Nat) : Nat := bits (q.cmd.toNat / 2 ^ 64) hi lo

/-- The MXE as the state holds it, changed. -/
def Tile.modMxe (t : Tile) (f : Mxe → Mxe) : Tile := { t with mxe := f t.mxe }
/-- A plane of the MXE. -/
def Mxe.pl (m : Mxe) (p : Nat) : Plane := sget Plane.init m.plane p
/-- A plane replaced. -/
def Mxe.setPl (m : Mxe) (p : Nat) (x : Plane) : Mxe := { m with plane := sput Plane.init m.plane p x }

/-- MXE_FLT flag of a fault code (Table 5-14). -/
def mxeFlag (code : Nat) : Fld :=
  match code with
  | 1 => F.MXE_FLT_ILL | 2 => F.MXE_FLT_BND | 3 => F.MXE_FLT_FMT | 4 => F.MXE_FLT_OVR | 5 => F.MXE_FLT_ACRC | 6 => F.MXE_FLT_PCRC
  | _ => F.MXE_FLT_SPARSE

/-- MXE_FLT records a fault with the capture of R134. -/
def Tile.mxeRecord (t : Tile) (q : QCmd) (code : Nat) : Tile :=
  let w := t.reg .MXE_FLT []
  let w := if w.toNat % 128 = 0 then
      F.MXE_FLT_THREAD.set (F.MXE_FLT_OPC.set (F.MXE_FLT_CODE.set w code) (q.w1 63 60)) q.th
    else w
  ((t.setReg .MXE_FLT [] w).setFld .MXE_FLT [] (mxeFlag code) 1).incSat .MXE_CNT [] F.MXE_CNT_FLT_CNT 1

/-- Everything queued or in flight in the MXE discarded; it stays stopped where a segment aborts (R133, R169, R430). -/
def Tile.mxeClear (stop : Bool) (t : Tile) : Tile :=
  { t with mxq := [], awaitA := if stop then 0 :: t.awaitA else t.awaitA, mxe := { t.mxe with
      loads := [], streams := [], rows := [], stopped := stop, nextBegin := 0, loadFree := 0, streamFree := 0, bad := none } }

/-- An MXE fault, R133: recorded, reported, the segment aborts, everything in flight and queued is discarded, the MXE stops; a LOADW that
faults leaves FIN of its plane at 0 (R189). -/
def State.mxeFault (s : State) (t : Nat) (q : QCmd) (code : Nat) : State :=
  let s := if q.w1 63 60 = 1 then s.modTile t fun x => x.modMxe fun m => m.setPl (q.w1 52 52) { m.pl (q.w1 52 52) with fin := false } else s
  let s := s.modTile t fun x => (x.mxeRecord q code).mxeClear x.segment.isSome
  s.segFault t (s.mkReport t (0x10 + code) (culTile t) culNone
    (natLe 8 (q.th * 2 ^ 48 + q.w1 63 60 * 2 ^ 44 + code * 2 ^ 32 + 2 ^ (code - 1))))

/-- A fault of this fc that is raised once the fc's writes have landed; the first of a fc is the one raised (R133). -/
def Mxe.fail (m : Mxe) (q : QCmd) (code : Nat) : Mxe := { m with bad := m.bad.orElse fun _ => some (q, code) }

/-- An engine's BOUNDS on a pad line, recorded in PAD_ERR (R56). -/
def Tile.engineBounds (t : Tile) (line unit th : Nat) : Tile := t.padEvent F.PAD_ERR_BOUNDS (line % 65536) unit th

/-- Whether a format is an MX format. -/
def isMx (c : Nat) : Bool := decide (3 ≤ c) && decide (c ≤ 7)
/-- Cell positions per column of a plane: K_eff without sparsity (Table 5-4). -/
def cellK (c : Nat) : Nat := if c = 7 || c = 9 then 128 else 64
/-- K_eff of a plane (R112, R113). -/
def kEff (c sp : Nat) : Nat := cellK c * 2 ^ sp
/-- Whether a sparsity mode is allowed for a plane format (Table 5-4). -/
def spOk (c sp : Nat) : Bool :=
  decide (sp = 0) || (decide (sp < 3) && (c == 1 || c == 2 || c == 3 || c == 4 || c == 8 || c == 7))
/-- Whether plane format `c` accepts activation format `a` (Table 5-4). -/
def pairOk (c a : Nat) : Bool :=
  match c with
  | 1 | 2 => a == 1 || a == 2
  | 3 | 4 | 5 | 6 => a == 3 || a == 4 || a == 5 || a == 6
  | 0 => false
  | c => decide (a = c)
/-- fc per row (Table 5-4). -/
def pOf (a : Nat) : Nat := if a = 10 || a = 11 then 2 else 1
/-- Lines of the value area (R114). -/
def valLines (c : Nat) : Nat := if c = 10 || c = 11 then 64 else if c = 5 || c = 6 then 24 else 32
/-- Lines of the metadata area. -/
def metaLines (c sp : Nat) : Nat := if sp = 0 then 0 else if c = 7 then 16 else 8
/-- Lines of the scale area. -/
def scaleLines (c sp : Nat) : Nat := if isMx c then (kEff c sp / 32 * 32 + 63) / 64 else 0
/-- `n` line numbers from `a` upwards. -/
def lineRun (a n : Nat) : List Nat := (List.range n).map fun i => a + i

/-! ### Values of a plane -/

/-- An element of `b` bits at position `e` of a little-endian bit stream (R111). -/
def elemAt (d : Bytes) (b e : Nat) : Nat :=
  let lo := b * e
  (leNat (slice d (lo / 8) 3)) / 2 ^ (lo % 8) % 2 ^ b

/-- The value 2^(e − 127) times a value; scale 0xFF is NaN (R110). -/
def scaled (v : FV) (e : Nat) : FV :=
  if e = 255 then .nan else match v with | .fin n m x => .fin n m (x + e - 127) | v => v

/-- The encoding in cell position `k` of column `n` of a plane (R114). -/
def Plane.cell (p : Plane) (n k : Nat) : Nat :=
  let b := elemBits p.fmt
  let base := if b = 16 then 128 * n else if b = 6 then 48 * n else 64 * n
  elemAt (p.data.drop base) b k

/-- The index of the stored value in cell position `c` of column `n` of a sparse plane (R114). -/
def Plane.index (p : Plane) (n c : Nat) : Nat :=
  let per := if p.fmt = 7 then 32 else 16
  bits (leNat (slice p.data (64 * valLines p.fmt + per * n) per)) (2 * c + 1) (2 * c)

/-- The scale of K_eff block `j` of column `n`. -/
def Plane.scale (p : Plane) (n j : Nat) : Nat :=
  (byteAt p.data (64 * (valLines p.fmt + metaLines p.fmt p.sp) + n * (kEff p.fmt p.sp / 32) + j)).toNat

/-- The K_eff position of cell position `c` of column `n` (R113). -/
def Plane.pos (p : Plane) (n c : Nat) : Nat :=
  match p.sp with
  | 0 => c
  | 1 => 4 * (c / 2) + p.index n c
  | _ => 4 * c + p.index n c

/-- The weight at cell position `c` of column `n`, scaled. -/
def Plane.weight (p : Plane) (n c : Nat) : FV :=
  let v := decodeElem p.fmt (p.cell n c)
  if isMx p.fmt then scaled v (p.scale n (p.pos n c / 32)) else v

/-- FIN of a plane, R189: every weight and every MX scale finite. -/
def Plane.finite (p : Plane) : Bool :=
  (List.range 32).all fun n => (List.range (cellK p.fmt)).all fun c => (p.weight n c).isFin

/-- The total of column `n` over the cells of a plane for one activation row (R116). -/
def Plane.dot (p : Plane) (n : Nat) (a : Nat → FV) : XSum :=
  (List.range (cellK p.fmt)).foldl (fun x c => x.add ((p.weight n c).mul (a (p.pos n c)))) XSum.zero

/-! ### LOADW -/

/-- Whether a LOADW's fields are legal (R119, R123, R185). -/
def loadwLegal (q : QCmd) : Bool :=
  let f := q.w1 59 56; let sp := q.w1 55 54; let ex := q.w1 53 53 = 1
  decide (q.w0 31 16 = 0) && decide (q.w1 46 0 = 0) && decide (1 ≤ f) && decide (f ≤ 11) && spOk f sp &&
    (isMx f || decide (q.w0 63 48 = 0)) && (decide (sp ≠ 0) || decide (q.w0 47 32 = 0)) &&
    (!decide ex || ((f == 1 || f == 2 || f == 8 || f == 10 || f == 11) && decide (sp = 0) && decide (q.w0 63 48 = 0) &&
      decide (q.w0 47 32 = 0)))

/-- The spans of a LOADW (R119, R124, R185). -/
def loadwLines (q : QCmd) : List Nat :=
  let f := q.w1 59 56; let sp := q.w1 55 54
  if q.w1 53 53 = 1 then lineRun (q.w0 15 0) (5 + if elemBits f = 16 then 64 else 32)
  else lineRun (q.w0 15 0) (valLines f) ++ lineRun (q.w0 47 32) (metaLines f sp) ++ lineRun (q.w0 63 48) (scaleLines f sp)

/-- EXP_ERR records a mismatch with the capture of R202. -/
def Tile.expRecord (t : Tile) (q : QCmd) (cause p a : Nat) : Tile :=
  let w := t.reg .EXP_ERR []
  let w := if F.EXP_ERR_MM.get w = 0 then
      F.EXP_ERR_WLINE.set (F.EXP_ERR_PDECL.set (F.EXP_ERR_PACT.set (F.EXP_ERR_CAUSE.set w cause) a) p) (q.w0 15 0)
    else w
  ((t.setReg .EXP_ERR [] w).setFld .EXP_ERR [] F.EXP_ERR_MM 1).incSat .EXP_CNT [] F.EXP_CNT_MM_CNT 1

/-- The cause of a header check that fails (R187, Table 8-7); 0 where it passes. -/
def headerCause (line : Bytes) (wfmt : Nat) : Nat :=
  let h := leNat (line.take 8)
  let b := elemBits wfmt
  if bits h 15 0 ≠ 0xB10C || bits h 23 20 ≠ 1 || bits h 63 48 ≠ 0 || (line.drop 8).any (· ≠ 0) then 1
  else if bits h 19 16 ≠ wfmt then 2
  else if 2048 < bits h 35 24 then 3
  else if bits h 47 36 ≠ (bits h 35 24 * b + 511) / 512 then 4
  else 0

/-- The elements of a compressed block in plane order, R184 R188: present positions take values in order, all others +0. -/
def expandGo (bitmap vals : Bytes) (b p : Nat) : Nat → Nat → Nat → List Nat
  | 0, _, _ => []
  | n + 1, i, k =>
    if bit (byteAt bitmap (i / 8)).toNat (i % 8) then
      (if k < p then elemAt vals b k else 0) :: expandGo bitmap vals b p n (i + 1) (k + 1)
    else 0 :: expandGo bitmap vals b p n (i + 1) k

/-- The set bits of a bitmap. -/
def popCount (bs : Bytes) : Nat := bs.foldl (fun a b => a + ((List.range 8).filter fun i => b.getLsbD i).length) 0

/-! ### Lines of a running LOADW -/

/-- A plane with line `j` of its areas entered (R124): the command's format and mode with the first, FIN 0 until the LOADW completes. -/
def Plane.enter (f sp j : Nat) (b : Bytes) (p : Plane) : Plane :=
  ⟨f, sp, false, padTo (p.data.take (64 * j)) (64 * j) ++ b ++ p.data.drop (64 * (j + 1))⟩

/-- The lines of a LOADW without the expander whose read is 4 fc back enter its plane (R124). -/
def Mxe.enterLines (fc : Nat) (m : Mxe) : Mxe :=
  m.loads.foldl (fun m l =>
    if l.q.w1 53 53 = 1 then m
    else
      let p := l.q.w1 52 52
      let due := (l.got.drop l.inn).takeWhile fun e => decide (e.1 + 4 ≤ fc)
      let pl := due.zipIdx.foldl (fun pl e => pl.enter (l.q.w1 59 56) (l.q.w1 55 54) (l.inn + e.2) e.1.2) (m.pl p)
      { m.setPl p pl with loads := m.loads.map fun k => if k.q = l.q then { k with inn := k.inn + due.length } else k }) m

/-- What the expander makes of its lines, R184 R188: the plane's bytes, and the count of the bitmap. -/
def expandLines (f : Nat) (got : List Bytes) : Bytes × Nat :=
  let h := leNat ((got.headD []).take 8)
  let bitmap := ((got.drop 1).take 4).flatten
  let es := expandGo bitmap (got.drop 5).flatten (elemBits f) (bits h 35 24) 2048 0 0
  (es.flatMap fun e => natLe (elemBits f / 8) e, popCount bitmap)

/-- The last fc of the load unit's work on a block: a LOADW completes 3 fc after it (R124, R186). -/
def LoadRun.done (l : LoadRun) : Nat := l.b + l.busy + 3

/-- A LOADW completes, R119 R124 R186 R188 R189: FIN of its plane and its gauge add; where the expander counted another number than P, it
fails instead. The expander's plane is written. -/
def Tile.loadDone (l : LoadRun) (t : Tile) : Tile :=
  let p := l.q.w1 52 52
  let t := if l.q.w1 53 53 = 1 then
      t.modMxe fun m => m.setPl p ⟨l.q.w1 59 56, 0, false, (expandLines (l.q.w1 59 56) (l.got.map Prod.snd)).1⟩
    else t
  match l.mism with
  | some (c, pn, a) => (t.expRecord l.q c pn a).modMxe fun m => m.fail l.q 7
  | none =>
    let t := t.modMxe fun m => { m.setPl p { m.pl p with fin := (m.pl p).finite } with loads := m.loads.erase l }
    let t := t.incWrap .MXE_CNT [] F.MXE_CNT_CMD_CNT 1
    let t := if l.q.w1 53 53 = 1 then t.incWrap .EXP_CNT [] F.EXP_CNT_BLK_CNT 1 else t
    if l.q.w1 51 51 = 1 then t.gadd (l.q.w1 50 47) 1 false else t

/-- The load unit waits one fc: its later reads, its completion and what waits for them move (R28; DEDUCED, log 63). -/
def Mxe.loadSlip (q : QCmd) (m : Mxe) : Mxe :=
  { m with
    loads := m.loads.map fun l => if l.q = q then { l with b := l.b + 1 } else l
    loadFree := m.loadFree + 1
    ready := sput 0 m.ready (q.w1 52 52) (sget 0 m.ready (q.w1 52 52) + 1) }

/-- The header of a compressed block has arrived, R187: a check that fails is SPARSE_SIZE_MISMATCH in this fc; one that passes gives the plane
the format and the dense mode, and fixes the lines and the time of the load (R186). -/
def State.headerCheck (s : State) (t : Nat) (l : LoadRun) : State :=
  let f := l.q.w1 59 56; let p := l.q.w1 52 52
  let line0 := (l.got.headD (0, [])).2
  let cause := headerCause line0 f
  let h := leNat (line0.take 8)
  let lv := bits h 47 36
  if cause ≠ 0 then (s.modTile t fun x => x.expRecord l.q cause (bits h 35 24) 0).mxeFault t l.q 7
  else
    let tt := 5 + max lv (if elemBits f = 16 then 32 else 16)
    s.modTile t fun x => x.modMxe fun m =>
      { m.setPl p { m.pl p with fmt := f, sp := 0, fin := false } with
        loads := m.loads.map fun k => if k.q = l.q then { k with lines := lineRun (l.q.w0 15 0) (5 + lv), busy := tt, hdr := false } else k
        loadFree := l.b + tt, ready := sput 0 m.ready p (l.b + tt) }

/-- The LOADW whose line is read next: the oldest that has lines left. -/
def LoadRun.more (l : LoadRun) : Bool := decide (l.got.length < l.lines.length)

/-- A line of a LOADW read in its fc (R124, R186); the count of the expander is taken with the last. -/
def State.loadRead (s : State) (t : Nat) (l : LoadRun) : State :=
  let fc := s.fc t
  let j := l.got.length
  match State.readLines t 2 l.q.th [(0, l.lines.getD j 0)] ⟨[], none, false⟩ s with
  | (⟨_, some line, _⟩, s) => (s.modTile t fun x => x.modMxe (Mxe.loadSlip l.q)).slip t line 2 l.q.th
  | (⟨got, none, crc⟩, s) =>
    if crc && !(l.hdr && decide (j = 4)) then s.mxeFault t l.q 6
    else
      let k := { l with got := l.got ++ [(fc, sget [] got 0)] }
      let k := if k.q.w1 53 53 = 1 && !k.more && !k.hdr then
          let a := (expandLines (k.q.w1 59 56) (k.got.map Prod.snd)).2
          let pn := bits (leNat ((k.got.headD (0, [])).2.take 8)) 35 24
          { k with mism := if a = pn then none else some (if pn < a then 5 else 6, pn, a) }
        else k
      let s := s.modTile t fun x => x.modMxe fun m => { m with loads := m.loads.map fun i => if i.q = l.q then k else i }
      if crc then (s.headerCheck t k |> fun u => if (u.tile t).mxe.loads.isEmpty then u else u.mxeFault t l.q 6) else s

/-- The load unit in a fc: the line due is read, a header that has arrived is checked (R124, R186, R187). -/
def State.loadUnit (s : State) (t : Nat) : State :=
  let fc := s.fc t
  let s := match (s.tile t).mxe.loads.find? LoadRun.more with
    | some l => if decide (l.b + l.got.length ≤ fc) then s.loadRead t l else s
    | none => s
  match (s.tile t).mxe.loads.find? fun l => l.hdr && decide (5 ≤ l.got.length) with
  | some l => s.headerCheck t l
  | none => s

/-! ### STREAM -/

/-- Lines of an activation row (R115). -/
def rowLines (a k : Nat) : Nat := (k * elemBits a + 511) / 512

/-- Whether a STREAM is legal in window mode and its fields are in range (R125, R129); the pair is checked later. -/
def streamLegal (q : QCmd) (pl : Plane) : Bool :=
  let a := q.w1 59 56
  let win := q.w1 52 52 = 1
  decide (q.w0 63 63 = 0) && decide (q.w0 62 58 ≤ 15) && decide (q.w0 57 54 ≤ 10) && decide (q.w1 44 40 = 0) &&
    decide (1 ≤ a) && decide (a ≤ 11) && (isMx a || decide (q.w1 15 0 = 0)) &&
    (if win then (a == 1 || a == 2 || a == 8) && decide (pl.sp = 0) && pairOk pl.fmt a else decide (q.w1 51 50 = 0))

/-- The activation line `m`, part `j`, of stream `i` (R126). -/
def actLine (q : QCmd) (i m j : Nat) : Nat :=
  let base := q.w0 15 0
  let raw := base + i * q.w0 31 16 + m * q.w0 39 32 + j * 2 ^ q.w0 62 58
  let wrap := q.w0 43 40
  if wrap = 0 then raw else let w := 2 ^ wrap; base / w * w + raw % w

/-- The byte of the scales of row `r` (R126), in units of bytes from line 0. -/
def scaleByte (q : QCmd) (jn i r j : Nat) : Nat :=
  let base := q.w1 15 0
  let raw := 64 * base + (4 * r + i) * jn + j
  let wrap := q.w0 43 40
  if wrap = 0 then raw else let w := 2 ^ wrap; 64 * (base / w * w) + raw % (64 * w)

/-- Elements per offset and offsets per line of window mode (R129). -/
def winShift (q : QCmd) : Nat := 64 / 2 ^ q.w1 51 50

/-- First and last lines of a STREAM's spans (R126, R129); windows where it wraps. Rows rise with r, so ends bound them. -/
def streamSpans (q : QCmd) (k : Nat) : List (Nat × Nat) :=
  let a := q.w1 59 56
  let rows := q.w1 39 16 + 1
  let win := q.w1 52 52 = 1
  let wrap := q.w0 43 40
  let jn := k / 32
  if wrap = 0 then
    let last := if win then (rows - 1) / (64 / winShift q) + 1 else rows - 1
    let acts := (List.range 4).flatMap fun i =>
      (List.range (if win then 1 else rowLines a k)).map fun j => (actLine q i 0 j, actLine q i last j)
    if isMx a then acts ++ [(q.w1 15 0, (64 * q.w1 15 0 + 4 * rows * jn - 1) / 64)] else acts
  else
    let w := 2 ^ wrap
    let b := q.w0 15 0 / w * w
    let sc := q.w1 15 0 / w * w
    (b, b + w - 1) :: if isMx a then [(sc, sc + w - 1)] else []

/-- The first span end that is outside a thread's window or beyond line 65,535: of several lines of a command that are outside, the one
captured is the first span end (DESIGN CHOICE, log 61: R56 does not say which LINE captures). -/
def Tile.badSpan (t : Tile) (th : Nat) (sp : List (Nat × Nat)) : Option Nat := t.badLine th (sp.flatMap fun e => [e.1, e.2])

/-- A LOADW begun in fc `b`, R124 R183. With the expander the first five lines are known; the header gives the rest (R186). -/
def Mxe.beginLoad (q : QCmd) (b : Nat) (m : Mxe) : Mxe :=
  let p := q.w1 52 52
  let ex := decide (q.w1 53 53 = 1)
  let ls := if ex then lineRun (q.w0 15 0) 5 else loadwLines q
  let busy := if ex then 21 else ls.length
  { m with loads := m.loads ++ [⟨q, b, ls, busy, [], 0, ex, none⟩], loadFree := b + busy, ready := sput 0 m.ready p (b + busy) }

/-- The lines of window mode that are read in the begin fc (R129). -/
def windowZero (q : QCmd) (b : Nat) : List (Nat × Nat × Nat) :=
  if q.w1 63 60 = 2 ∧ q.w1 52 52 = 1 then (List.range 4).map fun i => (b, i, actLine q i 0 0) else []

/-- A STREAM or DRAIN begun in fc `b` with issue interval `i` (R120, R125, R130). -/
def Mxe.beginStream (q : QCmd) (b i : Nat) (m : Mxe) : Mxe :=
  { m with streams := m.streams ++ [⟨q, b, 0, 0, b, windowZero q b, [], [], none⟩], streamFree := b + i }

/-- The checks and the begin of a LOADW in this fc, in the order of R119. -/
def State.loadwGo (s : State) (t : Nat) (q : QCmd) : State :=
  if !loadwLegal q then s.mxeFault t q 1
  else match (s.tile t).badLine q.th (loadwLines q) with
    | some l => (s.modTile t fun x => x.engineBounds l 2 q.th).mxeFault t q 2
    | none => s.modTile t fun x => x.modMxe (Mxe.beginLoad q (s.fc t))

/-- The checks and the begin of a STREAM in this fc, in the order of R119. Where its pair is not accepted or its plane not loaded, K_eff is
not defined; its spans are then taken with the dense K_eff of AFMT (DESIGN CHOICE, log 64). -/
def State.streamGo (s : State) (t : Nat) (q : QCmd) : State :=
  let pl := (s.tile t).mxe.pl (q.w1 55 55)
  let a := q.w1 59 56
  let k := kEff a (if pairOk pl.fmt a then pl.sp else 0)
  if !streamLegal q pl then s.mxeFault t q 1
  else match (s.tile t).badSpan q.th (streamSpans q k) with
    | some l => (s.modTile t fun x => x.engineBounds l 2 q.th).mxeFault t q 2
    | none =>
      if !pairOk pl.fmt a then s.mxeFault t q 3
      else s.modTile t fun x => x.modMxe (Mxe.beginStream q (s.fc t) (pOf a * (q.w1 39 16 + 1) + q.w1 52 52))

/-- The check and the begin of a DRAIN in this fc (R130); it touches no pad line. -/
def State.drainGo (s : State) (t : Nat) (q : QCmd) : State :=
  if q.w0 63 26 ≠ 0 || q.w0 15 10 ≠ 0 || q.w1 59 54 ≠ 0 || q.w1 52 50 ≠ 0 || q.w1 44 0 ≠ 0 then s.mxeFault t q 1
  else s.modTile t fun x => x.modMxe (Mxe.beginStream q (s.fc t) (q.w0 25 16 + 1))

/-! ### Rows -/

/-- Rows of a STREAM or DRAIN. -/
def StreamRun.total (r : StreamRun) : Nat := if r.q.w1 63 60 = 2 then r.q.w1 39 16 + 1 else r.q.w0 25 16 + 1

/-- The issue fc of row `n` (Table 5-7). -/
def StreamRun.issueFc (r : StreamRun) (n : Nat) : Nat :=
  if r.q.w1 63 60 = 2 then r.b + r.q.w1 52 52 + pOf (r.q.w1 59 56) * n else r.b + n

/-- The accumulator offset of row `n` in each quarter (R127, R130). -/
def StreamRun.offset (r : StreamRun) (n : Nat) : Nat :=
  if r.q.w1 63 60 = 2 then
    let w := 2 ^ r.q.w0 57 54
    r.q.w0 53 44 / w * w + (r.q.w0 53 44 + n) % w
  else (r.q.w0 9 0 + n) % 1024

/-- The pad lines that row `n` reads when it issues in fc `t`, by place: 4 streams times the lines of a row, line j of a two-fc row in fc
t + j, or the next window line of each stream; place 100 is a scale line that is due (R121, R126, R129). -/
def StreamRun.reads (r : StreamRun) (n t k : Nat) : List (Nat × Nat × Nat) :=
  let q := r.q
  let a := q.w1 59 56
  let la := rowLines a k
  let acts := if q.w1 52 52 = 1 then
      let tn := 64 / winShift q
      if n % tn = 0 then (List.range 4).map fun i => (t, i, actLine q i (n / tn + 1) 0) else []
    else (List.range 4).flatMap fun i => (List.range la).map fun j => (t + if pOf a = 2 then j else 0, i * la + j, actLine q i n j)
  if isMx a then
    let line := scaleByte q (k / 32) 0 n 0 / 64
    if (r.scale.map Prod.fst) = some line then acts else acts ++ [(t, 100, line)]
  else acts

/-- The activations and scales of the four streams of row `n` once its lines are in, and its run with the window and scale lines after it
(R126, R129). -/
def StreamRun.gather (r : StreamRun) (n k : Nat) : List (Bytes × Bytes) × StreamRun :=
  let q := r.q
  let a := q.w1 59 56
  let la := rowLines a k
  let at' := fun i => sget [] r.got i
  let (ds, win) :=
    if q.w1 52 52 = 1 then
      let sh := winShift q
      let tn := 64 / sh
      let ws := if n % tn = 0 then (r.win.map Prod.snd).zip ((List.range 4).map at') else r.win
      (ws.map fun w => (w.1 ++ w.2).drop (sh * (n % tn)), ws)
    else ((List.range 4).map fun i => ((List.range la).map fun j => at' (i * la + j)).flatten, [])
  let jn := k / 32
  let scale := if isMx a then
      let line := scaleByte q jn 0 n 0 / 64
      if (r.scale.map Prod.fst) = some line then r.scale else some (line, at' 100)
    else none
  let scs := (List.range 4).map fun i =>
    match scale with | some (_, b) => slice b (scaleByte q jn i n 0 % 64) jn | none => []
  (ds.zip scs, { r with got := [], win := win, scale := scale })

/-- The value of activation element `k` of a stream. -/
def actVal (a : Nat) (d sc : Bytes) (k : Nat) : FV :=
  let v := decodeElem a (elemAt d (elemBits a) k)
  if isMx a then scaled v (byteAt sc (k / 32)).toNat else v

/-- Whether a stream's row is gated, R191: every element a zero, no scale 0xFF, the plane finite. FIN is the one that the plane shows when the
row's lines are in, its issue fc (DESIGN CHOICE, log 65: R191 does not say in which fc it is taken). -/
def rowGated (a k : Nat) (fin : Bool) (d sc : Bytes) : Bool :=
  fin && (sc.all fun b => b ≠ 0xFF) && (List.range k).all fun i => (decodeElem a (elemAt d (elemBits a) i)).isZero

/-- The first running STREAM or DRAIN with a row still to issue, changed. -/
def modFirst (p : StreamRun → Bool) (f : StreamRun → StreamRun) : List StreamRun → List StreamRun
  | [] => []
  | r :: rs => if p r then f r :: rs else r :: modFirst p f rs

/-- Whether a run has rows to issue. -/
def StreamRun.more (r : StreamRun) : Bool := decide (r.issued < r.total)
/-- Whether the stream unit works on a run: rows to issue, or lines to read. -/
def StreamRun.active (r : StreamRun) : Bool := r.more || !r.need.isEmpty

/-- The lines of the row in issue are in: its activations, and the gated streams counted (R118, R191); before the first row of window mode,
the first window lines (R129). -/
def Tile.rowIn (r : StreamRun) (t : Tile) : Tile :=
  let set := fun (r : StreamRun) (t : Tile) => t.modMxe fun m => { m with streams := modFirst (fun x => x.q = r.q) (fun _ => r) m.streams }
  if r.issued = 0 then set { r with got := [], win := (List.range 4).map fun i => ([], sget [] r.got i) } t
  else
    let pl := t.mxe.pl (r.q.w1 55 55)
    let a := r.q.w1 59 56
    let k := kEff a pl.sp
    let g := r.gather (r.issued - 1) k
    let t := t.incWrap .MXE_GATED [] F.MXE_GATED_GATED (g.1.filter fun d => rowGated a k pl.fin d.1 d.2).length
    (set g.2 t).modMxe fun m => { m with rows := m.rows.map fun w => if w.q = r.q && w.acts.isNone then { w with acts := some g.1 } else w }

/-- The stream unit waits one fc for a slot: the row in issue, every later row and what waits for them move (R28; DEDUCED, log 63). -/
def Mxe.streamSlip (q : QCmd) (fc : Nat) (m : Mxe) : Mxe :=
  let f := fun (r : StreamRun) => { r with
    b := r.b + 1, tlast := r.tlast + 1, need := r.need.map fun e => (max (fc + 1) (if e.1 ≤ fc then e.1 else e.1 + 1), e.2.1, e.2.2) }
  { m with
    streams := modFirst (fun x => x.q = q) f m.streams
    rows := m.rows.map fun w => if w.q = q && w.acts.isNone then { w with t := w.t + 1 } else w
    streamFree := m.streamFree + 1
    idle := if q.w1 63 60 = 2 then sput 0 m.idle (q.w1 55 55) (sget 0 m.idle (q.w1 55 55) + 1) else m.idle }

/-- The lines due of the row in issue are read (R121). -/
def State.rowRead (s : State) (t : Nat) (r : StreamRun) : State :=
  let fc := s.fc t
  let due := r.need.filter fun e => decide (e.1 ≤ fc)
  match State.readLines t 2 r.q.th (due.map Prod.snd) ⟨r.got, none, false⟩ s with
  | (g, s) =>
    if g.crc then s.mxeFault t r.q 6
    else
      let r := { r with got := g.got, need := r.need.filter fun e => decide (fc < e.1) || (sget [] g.got e.2.1).isEmpty }
      let s := s.modTile t fun x => x.modMxe fun m => { m with streams := modFirst (fun x => x.q = r.q) (fun _ => r) m.streams }
      match g.lost with
      | some line => (s.modTile t fun x => x.modMxe (Mxe.streamSlip r.q fc)).slip t line 2 r.q.th
      | none => if r.need.isEmpty then s.modTile t (Tile.rowIn r) else s

/-- A row issues in fc `fc` (R118, R121): counted, in flight, its run and its plane's use moved on. -/
def Tile.rowIssue (fc : Nat) (r : StreamRun) (t : Tile) : Tile :=
  let q := r.q
  let strm := decide (q.w1 63 60 = 2)
  let k := kEff (q.w1 59 56) (t.mxe.pl (q.w1 55 55)).sp
  let need := if strm then r.reads r.issued fc k else []
  let r' := { r with issued := r.issued + 1, tlast := fc, need := need, got := [] }
  let t := t.incWrap .MXE_ROWS [] F.MXE_ROWS_ROWS 1
  let t := t.modMxe fun m =>
    { m with streams := modFirst (fun x => x.q = q) (fun _ => r') m.streams
             rows := m.rows ++ [⟨q, fc, r.offset r.issued, if strm then none else some [], [], [], if strm then 0 else 1⟩]
             idle := if strm then sput 0 m.idle (q.w1 55 55) (fc + 8) else m.idle }
  if strm && need.isEmpty then t.rowIn r' else t

/-- The stream unit in a fc: the next row issues if it is due, and the lines due are read (R121, R128, R129). -/
def State.streamUnit (s : State) (t : Nat) : State :=
  let fc := s.fc t
  match (s.tile t).mxe.streams.find? StreamRun.active with
  | none => s
  | some r =>
    if r.need.isEmpty then
      if decide (r.issueFc r.issued ≤ fc) then
        let s := s.modTile t (Tile.rowIssue fc r)
        match (s.tile t).mxe.streams.find? fun x => x.q = r.q with
        | some r => if r.need.any fun e => decide (e.1 ≤ fc) then s.rowRead t r else s
        | none => s
      else s
    else if r.need.any fun e => decide (e.1 ≤ fc) then s.rowRead t r else s

/-! ### Rows in flight -/

/-- The totals of a row whose activations are in the cells (R116, R121). -/
def Mxe.rowSums (m : Mxe) (w : RowRun) : List (List XSum) :=
  let pl := m.pl (w.q.w1 55 55)
  (w.acts.getD []).map fun d => (List.range 32).map fun c => pl.dot c (actVal (w.q.w1 59 56) d.1 d.2)

/-- Whether a row reads its old accumulator rows (R121): ACC, or a DRAIN. -/
def RowRun.reads (w : RowRun) : Bool := decide (w.q.w1 63 60 = 3) || decide (w.q.w1 54 54 = 1)
/-- Whether a row writes its accumulator rows: a STREAM, a DRAIN with ZERO. -/
def RowRun.writes (w : RowRun) : Bool := decide (w.q.w1 63 60 ≠ 3) || decide (w.q.w1 53 53 = 1)
/-- Whether a row emits an output tile: EMIT, or a DRAIN. -/
def RowRun.emits (w : RowRun) : Bool := decide (w.q.w1 63 60 = 3) || decide (w.q.w1 53 53 = 1)

/-- The accumulator rows of the four quarters at a row's offset. -/
def RowRun.accRowsOf (w : RowRun) : List Nat := (List.range 4).map fun i => i * 1024 + w.off

/-- A row's old values read in this fc; every failed check counts and is reported (R39, R121). -/
def State.rowOld (s : State) (t : Nat) (w : RowRun) : List Bytes × Bool × State :=
  let bad := w.accRowsOf.filter fun r => !s.rowOk t r
  (w.accRowsOf.map fun r => s.bytes (accAddr t r) 128, bad.isEmpty, bad.foldl (fun s r => s.accCrcFail t r 2 w.q.th) s)

/-- A row in flight replaced, or taken out where it is at stage 4. -/
def Mxe.setRow (m : Mxe) (w w' : RowRun) : Mxe :=
  { m with rows := if w'.stage = 4 then m.rows.erase w else m.rows.map fun x => if x = w then w' else x }

/-- A row finished: its run counts it. -/
def Mxe.rowOut (m : Mxe) (q : QCmd) : Mxe := { m with streams := modFirst (fun x => x.q = q) (fun r => { r with written := r.written + 1 }) m.streams }

/-- The rows that a row in flight writes: the sums with the old values (R116, R127), or what a DRAIN leaves (R130). -/
def RowRun.result (r : RowRun) : List Bytes :=
  if r.q.w1 63 60 = 3 then
    if r.q.w1 53 53 = 1 then List.replicate 4 (List.replicate 128 0) else []
  else
    (List.range 4).map fun i =>
      let old := r.old.getD i []
      ((r.sums.getD i []).zipIdx).flatMap fun e =>
        let x := if r.q.w1 54 54 = 1 then e.1.add (f32 (BitVec.ofNat 32 (leNat (slice old (4 * e.2) 4)))) else e.1
        natLe 4 x.result.toNat

/-- Entries of the finished-tile ring at the start of this fc (R43, R131). -/
def Mxe.ftrStart (m : Mxe) : Nat := m.ftr.length + m.ftrFree - m.ftrAdd

/-- An index with its wrap bit advanced by one in a ring of 32 (FTR_PTR). -/
def ftrNext (t : Tile) (idx wrap : Fld) : Tile :=
  let i := t.fld .FTR_PTR [] idx
  if i = 31 then (t.setFld .FTR_PTR [] idx 0).setFld .FTR_PTR [] wrap (1 - t.fld .FTR_PTR [] wrap)
  else t.setFld .FTR_PTR [] idx (i + 1)

/-- An output tile written to the finished-tile ring (R131). -/
def Tile.ftrPush (e : Bytes) (t : Tile) : Tile :=
  (ftrNext t F.FTR_PTR_TAIL F.FTR_PTR_TW).modMxe fun m => { m with ftr := m.ftr ++ [e], ftrAdd := m.ftrAdd + 1 }

/-- The cells and the accumulator reads of a row in a fc (R121): totals from 4 fc after its issue, the old rows 6 fc after it; a row that
fails its check makes no write (R133). -/
def State.rowFirst (t : Nat) (s : State) (w : RowRun) : State :=
  let fc := s.fc t
  let w1 := if w.stage = 0 && w.acts.isSome && decide (w.t + 4 ≤ fc) then { w with sums := (s.tile t).mxe.rowSums w, stage := 1 } else w
  if w1.stage = 1 && decide (w1.t + 6 ≤ fc) then
    if w1.reads then
      let r := s.rowOld t w1
      if r.2.1 then r.2.2.modTile t fun x => x.modMxe fun m => m.setRow w { w1 with old := r.1, stage := 2 }
      else r.2.2.modTile t fun x => x.modMxe fun m => (m.setRow w { w1 with stage := 4 }).fail w.q 5
    else s.modTile t fun x => x.modMxe fun m => m.setRow w { w1 with stage := 2 }
  else s.modTile t fun x => x.modMxe fun m => m.setRow w w1

/-- The write and the emission of a row in a fc (R121, R131, R132): its accumulator rows 13 fc after its issue, its output tile one fc later;
a full finished-tile ring is RING_OVERRUN. -/
def State.rowLast (t : Nat) (s : State) (w : RowRun) : State :=
  let fc := s.fc t
  if w.stage = 2 && decide (w.t + 13 ≤ fc) then
    let s := if w.writes then w.accRowsOf.zip w.result |>.foldl (fun s e => s.accWrite t e.1 e.2) s else s
    s.modTile t fun x => x.modMxe fun m =>
      if w.emits then m.setRow w { w with stage := 3 } else (m.setRow w { w with stage := 4 }).rowOut w.q
  else if w.stage = 3 && decide (w.t + 14 ≤ fc) then
    if 32 ≤ (s.tile t).mxe.ftrStart then s.modTile t fun x => x.modMxe fun m => (m.setRow w { w with stage := 4 }).fail w.q 4
    else s.modTile t fun x => (x.ftrPush (if w.q.w1 63 60 = 3 then w.old else w.result).flatten).modMxe fun m =>
      (m.setRow w { w with stage := 4 }).rowOut w.q
  else s

/-- The rows in flight in a fc: the reads of the accumulator come before its writes, since a read returns what stood in the fc before it
(R122); an output tile is written in the order of issue. -/
def State.mxeRows (s : State) (t : Nat) : State :=
  let s := (s.tile t).mxe.rows.foldl (State.rowFirst t) s
  (s.tile t).mxe.rows.foldl (State.rowLast t) s

/-- The completion fc of a STREAM or DRAIN (Table 5-7). -/
def StreamRun.done (r : StreamRun) : Nat := r.tlast + if r.q.w1 63 60 = 3 ∨ r.q.w1 53 53 = 1 then 14 else 13

/-- A STREAM or DRAIN completes: counted, its gauge add (R119, R128). -/
def Tile.streamDone (r : StreamRun) (t : Tile) : Tile :=
  let t := (t.modMxe fun m => { m with streams := m.streams.erase r }).incWrap .MXE_CNT [] F.MXE_CNT_CMD_CNT 1
  if r.q.w1 49 49 = 1 then t.gadd (r.q.w1 48 45) 1 false else t

/-- Lines entering their plane and commands completing in a fc; then a fault of this fc is raised (R124, R128, R133). -/
def State.mxeEnds (s : State) (t : Nat) : State :=
  let fc := s.fc t
  let s := s.modTile t fun x => x.modMxe (Mxe.enterLines fc)
  let s := ((s.tile t).mxe.loads.filter fun l => decide (l.done ≤ fc) && !l.more && !l.hdr).foldl (fun s l => s.modTile t (Tile.loadDone l)) s
  let s := ((s.tile t).mxe.streams.filter fun r => decide (r.written = r.total) && decide (r.done ≤ fc)).foldl
    (fun s r => s.modTile t (Tile.streamDone r)) s
  match (s.tile t).mxe.bad with
  | some (q, code) => s.mxeFault t q code
  | none => s

/-! ### Begin -/

/-- The fc from which a LOADW may use a plane: 8 fc after the last row of every STREAM begun on it (R120, condition 5). -/
def Mxe.planeIdle (m : Mxe) (p : Nat) : Nat :=
  m.streams.foldl (fun a r => if r.q.w1 63 60 = 2 ∧ r.q.w1 55 55 = p ∧ r.more then max a (r.issueFc (r.total - 1) + 8) else a) (sget 0 m.idle p)

/-- The fc in which a command may begin, R120: after its push, one begin per fc, its unit free, its plane free. -/
def Mxe.beginFc (m : Mxe) (q : QCmd) : Nat :=
  max (max (q.pushed + 1) m.nextBegin) (match q.w1 63 60 with
    | 1 => max m.loadFree (m.planeIdle (q.w1 52 52))
    | 2 => max m.streamFree (sget 0 m.ready (q.w1 55 55))
    | 3 => m.streamFree
    | _ => 0)

/-- The command at the head of the queue begins in this fc, if R120 lets it and the MXE is not stopped (R119, R430); an undefined opcode is
ILLEGAL_CMD. -/
def State.mxeBegin (s : State) (t : Nat) : State :=
  let fc := s.fc t
  match (s.tile t).mxq with
  | [] => s
  | q :: rest =>
    if !(s.tile t).mxe.stopped && decide ((s.tile t).mxe.beginFc q ≤ fc) then
      let s := s.modTile t fun x => { x with mxq := rest, used := 3 :: x.used, mxe := { x.mxe with nextBegin := fc + 1 } }
      match q.w1 63 60 with
      | 1 => s.loadwGo t q
      | 2 => s.streamGo t q
      | 3 => s.drainGo t q
      | _ => s.mxeFault t q 1
    else s

/-- The fc in which the MXE has something to do. -/
def Mxe.dues (m : Mxe) (mxq : List QCmd) : List Nat :=
  (match mxq with | q :: _ => if m.stopped then [] else [m.beginFc q] | [] => []) ++
    m.loads.flatMap (fun l =>
      (if l.more then [l.b + l.got.length] else [l.done]) ++ ((l.got.drop l.inn).take 1).map fun e => e.1 + 4) ++
    (match m.streams.find? StreamRun.active with
      | some r => if r.need.isEmpty then [r.issueFc r.issued] else r.need.map Prod.fst
      | none => []) ++
    (m.streams.filter fun r => decide (r.written = r.total)).map StreamRun.done ++
    m.rows.filterMap fun w => match w.stage with
      | 0 => if w.acts.isSome then some (w.t + 4) else none
      | 1 => some (w.t + 6)
      | 2 => some (w.t + 13)
      | _ => some (w.t + 14)

end Sys2Proof.Machine
end

