-- ==== Sys2Proof/Machine/Vxe.lean ====
section
/-! DEFINITION. The vector engine (chapter 06): what the begin of a command with its checks, its steps, their late writes and its
completion do in the fc they fall in. -/
namespace Sys2Proof.Machine

/-! ### Command fields (Table 6-4) and operation properties (Table 6-6) -/

/-- The operation. -/
def QCmd.vop (q : QCmd) : Nat := q.w1 63 56
/-- The number of steps. -/
def QCmd.vsteps (q : QCmd) : Nat := q.w1 55 40 + 1
/-- Operand A's kind: 0 register, 1 stepping register, 2 finished-tile ring, 3 pad. -/
def QCmd.vak (q : QCmd) : Nat := q.w1 39 38
/-- The destination's kind: 0 register, 1 stepping register, 2 pad, 3 pad ring. -/
def QCmd.vdk (q : QCmd) : Nat := q.w1 20 19
/-- IMM6. -/
def QCmd.imm6 (q : QCmd) : Nat := q.w1 5 0

/-- Operands an operation uses: A, B, C. -/
def vUses (op : Nat) : Bool × Bool × Bool :=
  if op = 0x04 || op = 0x22 then (true, true, true)
  else if [0x01, 0x02, 0x03, 0x05, 0x06, 0x0B, 0x10, 0x11, 0x12, 0x13, 0x20, 0x21, 0x23, 0x48].contains op then (true, true, false)
  else if [0x07, 0x08, 0x09, 0x14, 0x15, 0x17, 0x18, 0x24, 0x30, 0x38, 0x40, 0x41].contains op then (true, false, false)
  else (false, false, false)

/-- The operation codes of Table 6-6. -/
def vOps : List Nat :=
  [0x01, 0x02, 0x03, 0x04, 0x05, 0x06, 0x07, 0x08, 0x09, 0x0A, 0x0B, 0x10, 0x11, 0x12, 0x13, 0x14, 0x15, 0x16, 0x17, 0x18, 0x20,
   0x21, 0x22, 0x23, 0x24, 0x30, 0x38, 0x40, 0x41, 0x42, 0x43, 0x48, 0x50]

/-- Step cost c and latency L in fc. -/
def vCost (op imm : Nat) : Nat × Nat :=
  match op with
  | 0x30 => (8, 12)
  | 0x38 => (1, 10)
  | 0x40 => (4, 12)
  | 0x41 => (2, 10)
  | 0x42 => (1, 2)
  | 0x48 => if imm % 2 = 1 then (6, 17) else (4, 14)
  | 0x50 => (1, 2)
  | _ => (1, 8)

/-- Lines of a pad vector by format, R144; 0 for a format that the VXE neither reads nor writes. -/
def vLines (f : Nat) : Nat :=
  match f with
  | 0x0 | 0xC => 8
  | 0xA | 0xB => 4
  | 0x1 | 0x2 | 0x8 => 2
  | _ => 0

/-- Whether IMM6 is one the operation takes. -/
def vImmOk (op imm : Nat) : Bool :=
  match op with
  | 0x0B => decide (imm ≤ 5)
  | 0x14 | 0x15 => decide (imm < 32)
  | 0x24 | 0x43 | 0x48 | 0x50 => decide (imm < 2)
  | 0x30 => decide (imm < 8)
  | 0x38 => decide (imm / 8 ≤ 6) && decide (imm % 8 ≤ 2)
  | 0x40 => decide (imm / 8 ≤ 6) && decide (imm % 8 + 1 ≤ 2 ^ (imm / 8 + 1))
  | _ => decide (imm = 0)

/-- Lines one step writes to its destination. -/
def QCmd.vdLines (q : QCmd) : Nat := vLines (q.w0 59 56)
/-- The pad ring of DK = 3. -/
def QCmd.vring (q : QCmd) : Nat := q.w0 12 8
/-- Whether the command uses word 0 as IMM32. -/
def QCmd.vimm32 (q : QCmd) : Bool := q.vop == 0x0A || q.vop == 0x41
/-- c′: the step cost, no less than the lines of a ring entry (R146). -/
def QCmd.vcost (q : QCmd) : Nat :=
  let c := (vCost q.vop q.imm6).1
  if q.vdk = 3 then max c q.vdLines else c
/-- L. -/
def QCmd.vlat (q : QCmd) : Nat := (vCost q.vop q.imm6).2

/-- The fields of word 0 are those the operands need (R142 to R145). -/
def vWord0Ok (q : QCmd) : Bool :=
  if q.vimm32 then
    decide (q.w0 63 32 = 0) && decide (q.vak ≠ 3) && decide (q.vdk < 2) &&
      (q.vop == 0x0A || (decide (1 ≤ q.w0 24 16) && decide (q.w0 24 16 ≤ 256) && decide (1 ≤ q.w0 15 0) && decide (q.w0 31 25 = 0)))
  else
    let rup := q.vop == 0x48
    decide (q.w0 7 0 = 0) &&
      (if q.vak = 3 then decide (vLines (q.w0 63 60) ≠ 0) else decide (q.w0 63 60 = 0)) &&
      (decide (q.vak = 3) || rup || (decide (q.w0 55 48 = 0) && decide (q.w0 39 24 = 0))) &&
      (if 2 ≤ q.vdk then (decide (vLines (q.w0 59 56) ≠ 0) && (decide (q.vdk = 2) || decide (q.w0 23 13 = 0)))
       else (decide (q.w0 59 56 = 0) && decide (q.w0 47 40 = 0) && decide (q.w0 23 8 = 0)))

/-- The register fields are those the operands need; mask results, VTOPK, VRUPD, VDIG and VSLOTCLR restrict them (R143, R151, R153,
R155). A mask result (VCMP) takes DK 0: the spec does not say which DK it may have, any other is ILLEGAL_CMD here (DESIGN CHOICE, log 66). -/
def vWord1Ok (q : QCmd) : Bool :=
  let u := vUses q.vop
  (u.1 || (decide (q.vak = 0) && decide (q.w1 37 33 = 0))) &&
    (u.2.1 || (decide (q.w1 32 28 = 0) && decide (q.w1 22 22 = 0))) &&
    (u.2.2 || (decide (q.w1 27 23 = 0) && decide (q.w1 21 21 = 0))) &&
    (match q.vop with
     | 0x0B => decide (q.vdk = 0) && decide (q.w1 18 17 = 0)
     | 0x40 => decide (q.vdk = 0) && decide (q.w1 18 14 ≤ 30)
     | 0x42 => decide (q.vdk = 0) && decide (q.w1 18 14 = 0)
     | 0x48 => decide (q.vak = 1) && decide (q.vdk = 0) && decide (q.w1 18 14 = 0) && decide (q.w1 13 11 = 0)
     | 0x50 =>
       decide (q.vsteps = 1) &&
         (if q.imm6 = 0 then decide (q.vdk = 0) && decide (q.w1 18 14 = 0)
          else decide (q.vdk = 2) && decide (q.w0 59 56 = 0) && decide (q.w0 47 40 = 0))
     | _ => true)

/-- ILLEGAL_CMD of R156, but for the ring's entry size. -/
def vLegal (q : QCmd) : Bool := vOps.contains q.vop && vImmOk q.vop q.imm6 && vWord0Ok q && vWord1Ok q

/-- First and last lines of a span of `n` bank-sliced lines per step. -/
def vSpan (base stride steps n : Nat) : List Nat := [base, base + (steps - 1) * stride + (n - 1) * 1024]

/-- The ends of the spans of all steps (R144, R153, R155); they rise, so the ends bound them. -/
def QCmd.vspans (q : QCmd) : List Nat :=
  let v := q.vsteps
  (if q.vop = 0x48 then vSpan (q.w0 39 24) (q.w0 55 48) v 5
   else if q.vak = 3 then vSpan (q.w0 39 24) (q.w0 55 48) v (vLines (q.w0 63 60)) else []) ++
    (if q.vdk = 2 then vSpan (q.w0 23 8) (q.w0 47 40) v (if q.vop = 0x50 then 1 else q.vdLines) else [])

/-- The ring checks of R145: entry size, enabled with PROD 0x3 and inside the window, tag. -/
def Tile.vRingCheck (t : Tile) (q : QCmd) : Option Nat :=
  if q.vdk = 3 then
    let c := t.ring q.vring
    let b := F.RING_CFG_BASE.get c
    if ringEsz c ≠ 64 * q.vdLines then some 1
    else if !(decide (F.RING_CFG_EN.get c = 1) && decide (F.RING_CFG_PROD.get c = 3) &&
        (t.badLine q.th [b, b + F.RING_CFG_SIZE.get c - 1]).isNone) then some 2
    else if F.RING_CFG_FMT.get c ≠ 0 && F.RING_CFG_FMT.get c ≠ q.w0 59 56 then some 3
    else none
  else none

/-! ### Begin -/

/-- The fc in which a command may begin (R146). -/
def Vxe.beginFc (v : Vxe) (q : QCmd) : Nat := max (q.pushed + 1) v.free

/-- The checks and the begin of a command in this fc, in the order of Table 6-8. On BOUNDS at its ring, LINE is the ring's BASE (DESIGN CHOICE,
log 61: R56 does not say). -/
def State.vxeGo (s : State) (t : Nat) (q : QCmd) : State :=
  let b := s.fc t
  let x := s.tile t
  let ring := x.vRingCheck q
  if !vLegal q || ring == some 1 then s.vxeFault t q 1 b
  else match x.badLine q.th q.vspans, ring with
    | some l, _ => (s.modTile t fun x => x.engineBounds l 3 q.th).vxeFault t q 2 b
    | none, some 2 => (s.modTile t fun x => x.engineBounds (F.RING_CFG_BASE.get (x.ring q.vring)) 3 q.th).vxeFault t q 2 b
    | none, some _ => s.vxeFault t q 3 b
    | none, none =>
      s.modTile t fun x => x.modVxe fun v => { v with run := v.run ++ [⟨q, b, 0, b, []⟩], free := b + q.vsteps * q.vcost }

/-- The command at the head of the queue begins in this fc, if R146 lets it and the VXE is not stopped (R430). -/
def State.vxeBegin (s : State) (t : Nat) : State :=
  let fc := s.fc t
  match (s.tile t).vxq with
  | [] => s
  | q :: rest =>
    if !(s.tile t).vxe.stopped && decide ((s.tile t).vxe.beginFc q ≤ fc) then
      (s.modTile t fun x => { x with vxq := rest, used := 5 :: x.used, vxe := { x.vxe with free := fc + 1 } }).vxeGo t q
    else s

/-! ### Lane operations -/

/-- A packed operation per half (R137): `f` on the two halves of its operands. -/
def packed (f : FV → FV → FV → FV) (a b c : W32) : W32 :=
  let h := fun (i : Nat) => fmtB16.encode (f (b16 (a.toNat / 2 ^ (16 * i) % 65536)) (b16 (b.toNat / 2 ^ (16 * i) % 65536))
    (b16 (c.toNat / 2 ^ (16 * i) % 65536)))
  BitVec.ofNat 32 (h 1 * 65536 + h 0)

/-- The result of lane `l`, Table 6-6; every NaN result is the canonical NaN (R138). -/
def laneOp (op imm imm32 : Nat) (l : Nat) (a b c : W32) : W32 :=
  match op with
  | 0x01 => fadd a b
  | 0x02 => fsub a b
  | 0x03 => fmul a b
  | 0x04 => ffma a b c
  | 0x05 => fmin a b
  | 0x06 => fmax a b
  | 0x07 => if isNan32 a then nan32 else a &&& 0x7FFFFFFF
  | 0x08 => if isNan32 a then nan32 else a ^^^ 0x80000000
  | 0x09 => a
  | 0x0A => BitVec.ofNat 32 imm32
  | 0x10 => a + b
  | 0x11 => a &&& b
  | 0x12 => a ||| b
  | 0x13 => a ^^^ b
  | 0x14 => a <<< (imm % 32)
  | 0x15 => a >>> (imm % 32)
  | 0x16 => BitVec.ofNat 32 l
  | 0x17 => toF32 (intFV 32 a.toNat)
  | 0x18 => BitVec.ofNat 32 (ofIntN 32 (toIntSat (-2147483648) 2147483647 (f32 a)))
  | 0x20 => packed (fun x y _ => x.add y) a b c
  | 0x21 => packed (fun x y _ => x.mul y) a b c
  | 0x22 => packed (fun x y z => (x.mul y).add z) a b c
  | 0x23 => BitVec.ofNat 32 (fmtB16.encode (f32 b) * 65536 + fmtB16.encode (f32 a))
  | 0x24 => toF32 (b16 (if imm % 2 = 1 then a.toNat / 65536 else a.toNat % 65536))
  | 0x30 => vtr (imm % 8) a
  | _ => a

/-- A reduction operator of VRED: 0 sum, 1 max, 2 min. -/
def redOp (o : Nat) (a b : W32) : W32 := match o with | 0 => fadd a b | 1 => fmax a b | _ => fmin a b

/-- One level of the tree of R150: neighbouring partial results combined, lower lane on the left. -/
def treeLevel (f : W32 → W32 → W32) : List W32 → List W32
  | a :: b :: r => f a b :: treeLevel f r
  | r => r
/-- The tree over 2^n values. -/
def treeRed (f : W32 → W32 → W32) : Nat → List W32 → W32
  | 0, xs => xs.headD 0
  | n + 1, xs => treeRed f n (treeLevel f xs)

/-- Lanes cut into groups of `g`. -/
def groupsOf (g : Nat) (xs : List W32) : List (List W32) := (List.range (128 / g)).map fun i => (xs.drop (i * g)).take g

/-- VRED (R150). -/
def vred (imm : Nat) (a : List W32) : List W32 :=
  let n := imm / 8 + 1
  (groupsOf (2 ^ n) a).flatMap fun g => List.replicate (2 ^ n) (treeRed (redOp (imm % 4)) n g)

/-- Whether a lane ranks before another in the order of R151: higher first, NaN below −inf, −0 equal to +0, lower lane first. -/
def topBefore (x y : W32 × Nat) : Bool :=
  match isNan32 x.1, isNan32 y.1 with
  | true, true => decide (x.2 ≤ y.2)
  | true, false => false
  | false, true => true
  | false, false => (f32 y.1).lt (f32 x.1) || (!(f32 x.1).lt (f32 y.1) && decide (x.2 ≤ y.2))
/-- A lane put in its place of the order. -/
def topInsert (x : W32 × Nat) : List (W32 × Nat) → List (W32 × Nat)
  | [] => [x]
  | y :: ys => if topBefore x y then x :: y :: ys else y :: topInsert x ys
/-- VTOPK of one group: the first k in order, a NaN as the canonical NaN (R138), then zeros (R151). -/
def topk (k : Nat) (g : List W32) : List (W32 × Nat) :=
  let o := (g.zipIdx).foldr topInsert []
  (o.take k).map (fun e => (if isNan32 e.1 then nan32 else e.1, e.2)) ++ List.replicate (g.length - k) (0, 0)

/-- VSLOT over the lanes in ascending order (R152): results and counters. -/
def vslotGo (e cap : Nat) (mask : BitVec 128) : List (W32 × Nat) → SMap Nat → List W32 × SMap Nat
  | [], cnt => ([], cnt)
  | (a, l) :: r, cnt =>
    if mask.getLsbD l then
      let x := a.toNat
      let n := sget 0 cnt x
      let now : W32 × SMap Nat :=
        if e ≤ x then (0xFFFFFFFE, cnt)
        else if n < cap then (BitVec.ofNat 32 (x * cap + n), sput 0 cnt x (n + 1))
        else (0xFFFFFFFF, cnt)
      let rest := vslotGo e cap mask r now.2
      (now.1 :: rest.1, rest.2)
    else let rest := vslotGo e cap mask r cnt; (a :: rest.1, rest.2)

/-! ### Row updates (R153) -/

/-- Whether a word is finite. -/
def isFin32 (w : W32) : Bool := (f32 w).isFin
/-- The least e from −126 with amax ≤ 448·2^e, found from below. -/
def rupScale (amax : W32) : Nat → Int → Int
  | 0, e => e
  | n + 1, e => if (FV.fin false 448 e).lt (f32 amax) then rupScale amax n (e + 1) else e

/-- The new row image (320 bytes of the 5 lines) of a row update; none where the row keeps its old value. -/
def rowUpdate (adagrad : Bool) (img : Bytes) (grad : List W32) (lr eps : W32) : Option Bytes :=
  let sc := BitVec.ofNat 32 (leNat (slice img 256 4))
  let acc := BitVec.ofNat 32 (leNat (slice img 260 4))
  let g := grad.flatMap fun x => [toF32 (b16 (x.toNat % 65536)), toF32 (b16 (x.toNat / 65536))]
  let w0 := (List.range 256).map fun i => toF32 ((decodeElem 1 (byteAt img i).toNat).mul (f32 sc))
  let m := toF32 ((f32 (treeRed fadd 8 (g.map fun x => fmul x x))).mul (.fin false 1 (-8)))
  let acc' := if adagrad then fadd acc m else acc
  let u := if adagrad then fmul lr (vtr 3 (fadd acc' eps)) else lr
  let w := (w0.zip g).map fun e => ffma (u ^^^ 0x80000000) e.2 e.1
  if w.all isFin32 && isFin32 acc' && isFin32 u then
    let amax := w.foldl (fun a x => if (f32 a).lt (f32 (x &&& 0x7FFFFFFF)) then x &&& 0x7FFFFFFF else a) 0
    let e := rupScale amax 300 (-126)
    let x := if amax = 0 then sc else toF32 (.fin false 1 e)
    let q := if amax = 0 then w.map fun v => encodeFp8 true
        (if (f32 sc).isZero then .nan else .fin ((f32 v).neg != (f32 sc).neg) 0 0)
      else w.map fun v => encodeFp8 true ((f32 v).mul (.fin false 1 (-e)))
    some ((q.map fun b => BitVec.ofNat 8 b) ++ natLe 4 x.toNat ++ (if adagrad then natLe 4 acc'.toNat else slice img 260 4) ++
      slice img 264 56)
  else none

/-! ### Steps -/

/-- Lanes of a pad vector from its lines (R144). -/
def fromLines (f : Nat) (d : Bytes) : List W32 :=
  let b := if f = 0 then 32 else elemBits f
  (List.range 128).map fun e => widen f (leNat (slice d (e * (b / 8)) (b / 8)))
/-- The bytes of a pad vector in a destination format. -/
def toLines (f : Nat) (v : List W32) : Bytes :=
  let b := if f = 0 then 32 else elemBits f
  v.flatMap fun w => natLe (b / 8) (encodeDest f w)
/-- The byte enables of line `j` of a vector for active lanes. -/
def laneBytes (f : Nat) (mask : BitVec 128) (j : Nat) : BitVec 64 :=
  let k := (if f = 0 then 32 else elemBits f) / 8
  (List.range 64).foldl (fun a i => if mask.getLsbD ((64 * j + i) / k) then a ||| (1#64 <<< i) else a) 0

/-- Entries of the finished-tile ring a pop may take in this fc (R154). -/
def Mxe.ftrAvail (m : Mxe) : Nat := m.ftr.length - m.ftrAdd

/-- A tile popped from the finished-tile ring, with the digest tap (R154, R320). -/
def Tile.ftrPop (t : Tile) : Tile :=
  let e := t.mxe.ftr.headD []
  let t := (ftrNext t F.FTR_PTR_HEAD F.FTR_PTR_HW).modMxe fun m => { m with ftr := m.ftr.drop 1, ftrFree := m.ftrFree + 1 }
  if t.vxe.digOpen then t.modVxe fun v => { v with digY := ghash digestKey v.digY (padTo e 512), digN := v.digN + 1 } else t

/-- The pad lines that step `k` reads in its issue fc (R144, R153). -/
def QCmd.vsources (q : QCmd) (k : Nat) : List Nat :=
  let base := q.w0 39 24 + k * q.w0 55 48
  let n := if q.vop = 0x48 then 5 else if q.vak = 3 then vLines (q.w0 63 60) else 0
  (List.range n).map fun j => base + j * 1024

/-- Operand A of step `k`, its pad lines being in `d` (R143). -/
def Tile.vxeA (t : Tile) (k : Nat) (q : QCmd) (d : Bytes) : List W32 :=
  match q.vak with
  | 2 => let e := t.mxe.ftr.headD []; (List.range 128).map fun l => BitVec.ofNat 32 (leNat (slice e (4 * l) 4))
  | 3 => fromLines (q.w0 63 60) d
  | m => t.vxe.vec ((q.w1 37 33 + if m = 1 then k else 0) % 32)

/-- A step's late effect. -/
def lateOf (q : QCmd) (iss : Nat) (off : Nat) (a : LateAct) : Late := ⟨iss + q.vlat + off, 3, iss, q, a⟩

/-- The destination writes of a step with lane results (R143 to R145, R149). -/
def vxeDest (q : QCmd) (k iss : Nat) (mask : BitVec 128) (v : List W32) : List Late :=
  let f := q.w0 59 56
  let d := toLines f v
  let line := fun j => slice d (64 * j) 64
  match q.vdk with
  | 2 =>
    let base := q.w0 23 8 + k * q.w0 47 40
    [lateOf q iss 0 (.pad ((List.range q.vdLines).map fun j => (base + j * 1024, line j, laneBytes f mask j)))]
  | 3 => (List.range q.vdLines).map fun j => lateOf q iss j (.ring q.vring j q.vdLines (line j) (laneBytes f mask j))
  | m => [lateOf q iss 0 (.vreg ((q.w1 18 14 + if m = 1 then k else 0) % 32) mask v)]

/-- A row update step over the image of its row, R153: values and scale, and for Adagrad the accumulator, are written, the rest of line 4 is
not; a row whose update is not finite stays, RUPD_SKIP counts. -/
def Tile.vxeRow (k iss : Nat) (q : QCmd) (img : Bytes) (t : Tile) : Tile :=
  let v := t.vxe
  let bv := v.vec ((q.w1 32 28 + if q.w1 22 22 = 1 then k else 0) % 32)
  match rowUpdate (decide (q.imm6 = 1)) img (v.vec ((q.w1 37 33 + k) % 32)) (bv.getD 0 0) (bv.getD 1 0) with
  | some d =>
    t.addLate (lateOf q iss 0 (.pad ((q.vsources k).zipIdx.map fun e =>
      (e.1, slice d (64 * e.2) 64, if e.2 < 4 then BitVec.allOnes 64 else if q.imm6 = 1 then 0xFF else 0x0F))))
  | none => t.incSat .VXE_CNT [] F.VXE_CNT_RUPD_SKIP 1

/-- VDIG in its issue fc (R155). -/
def Tile.vxeDig (q : QCmd) (iss : Nat) (t : Tile) : Tile :=
  let v := t.vxe
  if q.imm6 = 0 then t.modVxe fun v => { v with digY := 0, digN := 0, digOpen := true }
  else
    let y := if v.digOpen then gfMul (v.digY ^^^ blockOf (natLe 8 v.digN)) digestKey else 0
    let n := if v.digOpen then v.digN else 0
    let b := blockBytes y ++ natLe 8 n ++ List.replicate 40 0
    (t.modVxe fun v => { v with digOpen := false }).addLate
      (lateOf q iss 0 (.dig (q.w0 23 8) b (BitVec.ofNat 128 (leNat (blockBytes y))) n))

/-- The lane results of a step and its late effects, for the operations over lanes. -/
def Tile.vxeLanes (q : QCmd) (k iss : Nat) (a : List W32) (t : Tile) : Tile :=
  let v := t.vxe
  let mask := v.mask (q.w1 13 11)
  let b := v.vec ((q.w1 32 28 + if q.w1 22 22 = 1 then k else 0) % 32)
  let c := v.vec ((q.w1 27 23 + if q.w1 21 21 = 1 then k else 0) % 32)
  let imm := q.imm6
  let put := fun (t : Tile) (ls : List Late) => ls.foldl (fun t l => t.addLate l) t
  match q.vop with
  | 0x0B =>
    let bits := ((a.zip b).zipIdx).foldl (fun (m : BitVec 128) e =>
      if fcmp (imm % 8) e.1.1 e.1.2 then m ||| (1#128 <<< e.2) else m) 0
    put t [lateOf q iss 0 (.vmask (q.w1 16 14) mask bits)]
  | 0x38 => put t (vxeDest q k iss mask (vred imm a))
  | 0x40 =>
    let r := (groupsOf (2 ^ (imm / 8 + 1)) a).flatMap (topk (imm % 8 + 1))
    put t [lateOf q iss 0 (.vreg (q.w1 18 14) mask (r.map Prod.fst)),
      lateOf q iss 0 (.vreg (q.w1 18 14 + 1) mask (r.map fun e => BitVec.ofNat 32 e.2))]
  | 0x41 =>
    let r := vslotGo (q.w0 24 16) (q.w0 15 0) mask a.zipIdx v.cnt
    put (t.modVxe fun v => { v with cnt := r.2 }) (vxeDest q k iss mask r.1)
  | 0x42 => t.modVxe fun v => { v with cnt := [] }
  | 0x43 =>
    put t (vxeDest q k iss mask ((List.range 128).map fun l => BitVec.ofNat 32 (sget 0 v.cnt (128 * (imm % 2) + l))))
  | op =>
    put t (vxeDest q k iss mask (((a.zip b).zip c).zipIdx.map fun e => laneOp op imm (q.w0 31 0) e.2 e.1.1.1 e.1.1.2 e.1.2))

/-- Whether a command has steps to issue. -/
def VxeRun.more (r : VxeRun) : Bool := decide (r.k < r.q.vsteps)
/-- The first running command with a step to issue, changed. -/
def stepFirst (f : VxeRun → VxeRun) : List VxeRun → List VxeRun
  | [] => []
  | r :: rs => if r.more then f r :: rs else r :: stepFirst f rs
/-- The fc of the next step of a command (R146). -/
def VxeRun.stepFc (r : VxeRun) : Nat := r.b + r.q.vcost * r.k

/-- A step has its operands and issues in fc `iss` (R143 to R155): a pop of the ring, and its late effects. -/
def Tile.vxeIssue (iss : Nat) (r : VxeRun) (d : Bytes) (t : Tile) : Tile :=
  let q := r.q
  let a := t.vxeA r.k q d
  let t := if q.vak = 2 then t.ftrPop else t
  let t := t.modVxe fun v => { v with run := stepFirst (fun r => { r with k := r.k + 1, t := iss, got := [] }) v.run }
  if q.vop = 0x48 then t.vxeRow r.k iss q d
  else if q.vop = 0x50 then t.vxeDig q iss
  else t.vxeLanes q r.k iss a

/-- The VXE loses a bank in this fc: its pipeline will wait (R148). -/
def Vxe.lose (line th : Nat) (v : Vxe) : Vxe := { v with lost := v.lost.orElse fun _ => some (line, th) }

/-- The step due in a fc (R146, R148, R154): it takes its slots, reads, and issues once all its lines are in; an empty ring is
RING_UNDERRUN, a failed line check PAD_CRC (R156). -/
def State.vxeStep (s : State) (t : Nat) : State :=
  let fc := s.fc t
  match (s.tile t).vxe.run.find? VxeRun.more with
  | none => s
  | some r =>
    if decide (fc < r.stepFc) then s
    else if r.q.vak = 2 && decide ((s.tile t).mxe.ftrAvail = 0) then s.vxeFault t r.q 5 fc
    else
      let ls := (r.q.vsources r.k).zipIdx.map fun e => (e.2, e.1)
      match State.readLines t 3 r.q.th (ls.filter fun e => (sget [] r.got e.1).isEmpty) ⟨r.got, none, false⟩ s with
      | (g, s) =>
        if g.crc then s.vxeFault t r.q 6 fc
        else match g.lost with
          | some line => s.modTile t fun x => x.modVxe fun v =>
              { v with run := stepFirst (fun r => { r with got := g.got }) v.run }.lose line r.q.th
          | none => s.modTile t (Tile.vxeIssue fc r (ls.flatMap fun e => sget [] g.got e.1))

/-! ### Late writes (R145, R146, R148) -/

/-- The lines of a late write written in their fc; those whose bank is taken stay due, and move with the pipeline; `k` is what follows the
last. -/
def State.vxeWrite (s : State) (t : Nat) (l : Late) (ls : List (Nat × Bytes × BitVec 64)) (again : List (Nat × Bytes × BitVec 64) → LateAct)
    (k : Tile → Tile) : State :=
  match s.writeBad t 3 l.q.th ls with
  | (some live, s) => s.vxeFault t l.q (if live then 7 else 6) l.iss
  | (none, s) =>
    match State.writeLines t 3 l.q.th ls s with
    | ([], s) => s.modTile t fun x => k (x.dropLate l)
    | (e :: es, s) => s.modTile t fun x =>
        ((x.dropLate l).addLate { l with due := s.fc t, act := again (e :: es) }).modVxe (Vxe.lose e.1 l.q.th)

/-- Line `j` of an entry of a ring, R42 R46 R145: an advance while EN is 0 is BOUNDS; at its first line a full ring drops the whole entry,
which without EDGE is RING_OVERRUN. -/
def State.vxeRing (s : State) (t : Nat) (l : Late) (n j m : Nat) (b : Bytes) (en : BitVec 64) : State :=
  let x := s.tile t
  if x.fld .RING_CFG [n] F.RING_CFG_EN = 0 then
    (s.modTile t fun x => x.engineBounds (x.entryAddr n (x.tail n) / 64 + j) 3 l.q.th).vxeFault t l.q 2 l.iss
  else if j = 0 && x.ringFull n then
    let s := s.modTile t fun x => { x with late := x.late.filter fun k => !(decide (k.unit = 3) && decide (k.iss = l.iss) && decide (k.q = l.q)) }
    if x.fld .RING_CFG [n] F.RING_CFG_EDGE = 1 then s.modTile t fun x => x.ringOver n
    else (s.modTile t fun x => x.setFld .RING_STAT [n] F.RING_STAT_OVR 1).vxeFault t l.q 4 l.iss
  else
    s.vxeWrite t l [((x.entryAddr n (x.tail n)) / 64 + j, b, en)] (fun _ => l.act) fun x => if j + 1 = m then x.advTail n 1 else x

/-- A late write of the VXE in its fc. -/
def State.vxeLand (t : Nat) (s : State) (l : Late) : State :=
  if (s.tile t).late.contains l then
    match l.act with
    | .pad ls => s.vxeWrite t l ls .pad id
    | .ring n j m b en => s.vxeRing t l n j m b en
    | .dig line b y n => s.vxeWrite t l [(line, b, BitVec.allOnes 64)] (fun _ => l.act) fun x =>
        ((x.setReg .VXE_DIG_LO [] (y.truncate 64)).setReg .VXE_DIG_HI [] ((y >>> 64).truncate 64)).setReg .VXE_DIGCNT [] (BitVec.ofNat 64 n)
    | _ => s
  else s

/-- The pad writes of the VXE due in a fc, in the order of their steps: they come before the reads of the steps of that fc (DESIGN CHOICE, log 67:
R148 does not say which of two accesses of the VXE to one bank takes the slot). -/
def State.vxeWrites (s : State) (t : Nat) : State := ((s.tile t).ripe (s.fc t) fun l => decide (l.unit = 3)).foldl (State.vxeLand t) s

/-- A register write of the VXE. -/
def Vxe.landReg (v : Vxe) (l : Late) : Vxe :=
  match l.act with
  | .vreg n lanes vals => v.setVec n lanes vals
  | .vmask n lanes vals => v.setMask n lanes vals
  | _ => v
/-- Whether a late effect writes a register of the VXE. -/
def Late.isReg (l : Late) : Bool := match l.act with | .vreg _ _ _ => true | .vmask _ _ _ => true | _ => false

/-- The completion fc of a command whose steps have all issued (R146). -/
def VxeRun.done (r : VxeRun) : Nat := r.t + r.q.vlat + if r.q.vdk = 3 then r.q.vdLines - 1 else 0

/-- A command completes: counted, its gauge add (R146). -/
def Tile.vxeDone (r : VxeRun) (t : Tile) : Tile :=
  let t := (t.modVxe fun v => { v with run := v.run.erase r }).incWrap .VXE_CNT [] F.VXE_CNT_CMD_CNT 1
  if r.q.w1 10 10 = 1 then t.gadd (r.q.w1 9 6) 1 false else t

/-- Registers written in a fc show from the fc after (R146): they land when the steps of the fc have read, in the order of issue (R147). -/
def Tile.vxeRegs (fc : Nat) (t : Tile) : Tile :=
  let ls := t.ripe fc fun l => decide (l.unit = 3) && l.isReg
  { t with late := t.late.filter fun l => !(ls.contains l), vxe := ls.foldl Vxe.landReg t.vxe }

/-- The commands that complete by a fc: all steps issued, their last write landed (R146). -/
def Tile.vxeOver (fc : Nat) (t : Tile) : List VxeRun :=
  t.vxe.run.filter fun r => !r.more && decide (r.done ≤ fc) && !(t.late.any fun l => decide (l.q = r.q) && decide (l.unit = 3))

/-- The whole pipeline one fc later: every later step, read and write (R148). -/
def Tile.vxeShift (t : Tile) : Tile :=
  { t with
    late := t.late.map fun l => if l.unit = 3 then { l with due := l.due + 1 } else l
    vxe := { t.vxe with run := t.vxe.run.map fun r => { r with b := r.b + 1, t := r.t + 1 }, free := t.vxe.free + 1, lost := none } }

/-- The end of a fc in the VXE: registers land, commands complete, and where an access has lost its bank everything later moves by one fc. -/
def State.vxeEnd (s : State) (t : Nat) : State :=
  let fc := s.fc t
  let s := s.modTile t (Tile.vxeRegs fc)
  let s := ((s.tile t).vxeOver fc).foldl (fun s r => s.modTile t (Tile.vxeDone r)) s
  match (s.tile t).vxe.lost with
  | some (line, th) => (s.modTile t (Tile.vxeShift)).slip t line 3 th
  | none => s

/-- The fc in which the VXE has something to do, but for its late writes. -/
def Vxe.dues (v : Vxe) (vxq : List QCmd) : List Nat :=
  (match vxq with | q :: _ => if v.stopped then [] else [v.beginFc q] | [] => []) ++
    (match v.run.find? VxeRun.more with | some r => [r.stepFc] | none => []) ++
    (v.run.filter fun r => !r.more).map VxeRun.done

end Sys2Proof.Machine
end

