-- ==== Sys2Proof/Machine/Xfe.lean ====
section
/-! DEFINITION. The transfer engine (chapter 09, R209 to R215) and the arrival of scheduled units (R174, R175, R220): what they do in the fc
they fall in. -/
namespace Sys2Proof.Machine

/-- Numbers of the channels: 0 T, 1 A, 2 C, 3 to 6 send N E S W, 7 to 10 take N E S W. -/
def chanNo : XChan → Nat
  | .tower => 0 | .acc => 1 | .copy => 2 | .sN => 3 | .sE => 4 | .sS => 5 | .sW => 6 | .kN => 7 | .kE => 8 | .kS => 9 | .kW => 10
/-- The send channel of a direction. -/
def sendChan (d : Nat) : XChan := match d with | 0 => .sN | 1 => .sE | 2 => .sS | _ => .sW
/-- The take channel of a direction. -/
def takeChan (d : Nat) : XChan := match d with | 0 => .kN | 1 => .kE | 2 => .kS | _ => .kW

/-- OPC. -/
def QCmd.xop (q : QCmd) : Nat := q.w1 63 60
/-- Step count. -/
def QCmd.xn (q : QCmd) : Nat := q.w1 54 39 + 1
/-- PLINE of step `j`. -/
def QCmd.pline (q : QCmd) (j : Nat) : Nat := q.w0 15 0 + j * q.w1 38 31
/-- QLINE of step `j` of a tower transfer. -/
def QCmd.qline (q : QCmd) (j : Nat) : Nat := q.w0 31 16 + j * q.w1 38 31
/-- The unit an HSEND of a tile makes, without its data (R212). -/
def QCmd.hsDest (q : QCmd) : Nat := q.w1 24 20 * 48 + q.w1 30 25
/-- RL of ICOPY. -/
def QCmd.rl (q : QCmd) : Nat := q.w1 30 26 + 1
/-- IMAX of ICOPY. -/
def QCmd.imax (q : QCmd) : Nat := q.w1 25 10 + 1
/-- Accumulator row of step `j`. -/
def QCmd.arow (q : QCmd) (j : Nat) : Nat := (q.w1 30 19 + j) % 4096

/-- ILLEGAL_CMD of R209. -/
def xLegal (t : Nat) (q : QCmd) : Bool :=
  decide (q.w0 63 48 = 0) &&
    (decide (q.xop = 7) || decide (q.w0 47 32 = 0)) &&
    match q.xop with
    | 1 | 2 => decide (q.w1 28 26 = 0) && decide (q.w1 30 29 ≠ 3) && (decide (q.w1 30 29 = 0) || decide (q.w0 31 16 = 0))
    | 3 => decide (q.w1 18 0 = 0) && decide (q.w0 31 16 = 0) && decide (q.w1 30 25 < 48) && decide (q.w1 24 20 < 24) &&
        decide (q.hsDest ≠ t)
    | 4 => decide (q.w1 28 0 = 0) && decide (q.w0 31 16 = 0)
    | 5 | 6 => decide (q.w1 18 0 = 0) && decide (q.w0 31 16 = 0) && decide (q.xn ≤ 4096)
    | 7 => decide (q.w1 9 0 = 0) && decide (q.w1 38 31 = 0)
    | _ => false

/-- The ends of the pad spans of a command (Table 9-4, R214). -/
def xSpans (q : QCmd) : List Nat :=
  let n := q.xn
  match q.xop with
  | 1 | 2 => [q.pline 0, q.pline (n - 1)] ++ if q.w1 30 29 = 0 then [q.qline 0, q.qline (n - 1)] else []
  | 7 => [q.w0 47 32, q.w0 47 32 + (n - 1) / 16, q.pline 0, q.pline 0 + n * q.rl - 1, q.w0 31 16, q.w0 31 16 + q.imax * q.rl - 1]
  | _ => [q.pline 0, q.pline (n - 1), q.pline 0 + 1024, q.pline (n - 1) + 1024]

/-- The channel of a legal command. -/
def xChan (t : Nat) (q : QCmd) : XChan :=
  match q.xop with
  | 1 | 2 => .tower
  | 3 => sendChan (((⟨[], q.hsDest, q.w1 19 19 = 1⟩ : HopUnit).dirAt t).getD 0)
  | 4 => takeChan (q.w1 30 29)
  | 7 => .copy
  | _ => .acc

/-- The unit code of a command's pad accesses (R211, R212). -/
def QCmd.xunit (q : QCmd) : Nat := if q.xop = 3 || q.xop = 4 then 0 else 1

/-- The usable slot `k` slots after slot `f`. -/
def slotAfter (f k : Nat) : Nat := let i := f / 16 * 15 + f % 16 + k; i / 15 * 16 + i % 15
/-- The first slot of a tower transfer begun in fc `e` (R211). -/
def QCmd.slot0 (q : QCmd) (e : Nat) : Nat := slotFrom (if q.xop = 2 then e + 4 else e)
/-- The issue interval of a command begun in fc `e` (R210). -/
def QCmd.xinterval (q : QCmd) (e : Nat) : Nat :=
  match q.xop with
  | 1 | 2 => slotAfter (q.slot0 e) (q.xn - 1) - e + 1
  | 7 => q.xn * q.rl
  | _ => q.xn

/-- The fc in which the first step of a command begun in fc `b` is due (Table 9-4, R211). -/
def QCmd.xfirst (q : QCmd) (b : Nat) : Nat := if q.xop = 2 then q.slot0 b - 4 else if q.xop = 1 then q.slot0 b else b

/-- Steps of a command: for ICOPY one per source line. -/
def XfeRun.total (r : XfeRun) : Nat := if r.q.xop = 7 then r.q.xn * r.q.rl else r.q.xn
/-- Whether a command on a channel has steps left. -/
def XfeRun.next (ch : XChan) (r : XfeRun) : Bool := decide (r.ch = ch) && decide (r.j < r.total)

/-- The fc in which a command may begin (R210). -/
def Tile.xfeBeginFc (t : Tile) (n : Nat) (q : QCmd) : Nat :=
  max (max (q.pushed + 1) t.xfe.nextBegin) (sget 0 t.xfe.free (chanNo (xChan n q)))

/-- The checks and the begin of a command in this fc (R209, R210, R213). -/
def State.xfeGo (s : State) (t : Nat) (q : QCmd) : State :=
  let b := s.fc t
  let ch := xChan t q
  if !xLegal t q then s.modTile t fun x => x.xfeBad q 1 (culTile t) culNone
  else match (s.tile t).badLine q.th (xSpans q) with
    | some l => s.modTile t fun x => (x.engineBounds l q.xunit q.th).xfeBad q 2 (culTile t) culNone
    | none =>
      if (q.xop = 1 || q.xop = 2) && decide (s.twrLines (regionOf t) < 2 * (q.w1 25 0 + q.xn)) then
        s.modTile t fun x => x.xfeBad q 2 (culTile t) culNone
      else s.modTile t fun x =>
        { x with xfe := { x.xfe with
          run := x.xfe.run ++ [⟨ch, q, b, 0, q.xfirst b, b, [], []⟩]
          free := sput 0 x.xfe.free (chanNo ch) (b + q.xinterval b) } }

/-- The command at the head of the queue begins in this fc, if R210 lets it and the XFE is not stopped (R430). -/
def State.xfeBegin (s : State) (t : Nat) : State :=
  let fc := s.fc t
  match (s.tile t).xfq with
  | [] => s
  | q :: rest =>
    if !(s.tile t).xfe.stopped && decide ((s.tile t).xfeBeginFc t q ≤ fc) && !((s.tile t).xfe.run.any (XfeRun.next (xChan t q))) then
      (s.modTile t fun x => { x with xfq := rest, used := 4 :: x.used, xfe := { x.xfe with nextBegin := fc + 1 } }).xfeGo t q
    else s

/-! ### Steps -/

/-- The first command that has steps left on a channel, changed. -/
def xStepped (ch : XChan) (f : XfeRun → XfeRun) : List XfeRun → List XfeRun
  | [] => []
  | r :: rs => if r.next ch then f r :: rs else r :: xStepped ch f rs
/-- A step of a channel done in fc `f` (of a TWRITE, its tower slot), the next one due in fc `due`. -/
def Tile.xDone (ch : XChan) (f due : Nat) (idx : Bytes) (t : Tile) : Tile :=
  { t with xfe := { t.xfe with run := xStepped ch (fun r => { r with j := r.j + 1, t := f, due := due, got := [], idx := idx }) t.xfe.run } }
/-- A step of a channel put off to fc `due`, with the lines it has read; the channel is free that much later (R28, R64; DEDUCED, log 63). -/
def Tile.xWait (ch : XChan) (fc due : Nat) (got : SMap Bytes) (t : Tile) : Tile :=
  { t with xfe := { t.xfe with
      run := xStepped ch (fun r => { r with due := due, got := got }) t.xfe.run
      free := sput 0 t.xfe.free (chanNo ch) (sget 0 t.xfe.free (chanNo ch) + (due - fc)) } }

/-- A late effect of an XFE step. -/
def xLate (q : QCmd) (due iss : Nat) (a : LateAct) : Late := ⟨due, q.xunit, iss, q, a⟩

/-- The lines of the tower that step `j` moves (R211). -/
def QCmd.twrLinesOf (q : QCmd) (j : Nat) : List Nat :=
  let b := 2 * (q.w1 25 0 + j)
  match q.w1 30 29 with | 0 => [b, b + 1] | 1 => [b] | _ => [b + 1]
/-- The pad lines that step `j` of a tower transfer moves. -/
def QCmd.twrPads (q : QCmd) (j : Nat) : List Nat := if q.w1 30 29 = 0 then [q.pline j, q.qline j] else [q.pline j]

/-- Pad lines read by a step, by place, in the slots of this fc; `k` goes on with the lines once all are in. -/
def State.xfeRead (s : State) (t : Nat) (r : XfeRun) (ls : List (Nat × Nat)) (k : SMap Bytes → State → State) : State :=
  let fc := s.fc t
  match State.readLines t r.q.xunit r.q.th (ls.filter fun e => (sget [] r.got e.1).isEmpty) ⟨r.got, none, false⟩ s with
  | (g, s) =>
    if g.crc then s.modTile t fun x => x.xfeBad r.q 6 (culTile t) culNone
    else match g.lost with
      | some line => (s.modTile t (Tile.xWait r.ch fc (fc + 1) g.got)).slip t line r.q.xunit r.q.th
      | none => k g.got s

/-- Whole lines for a late pad write. -/
def wholeLines (ls : List Nat) (d : List Bytes) : List (Nat × Bytes × BitVec 64) := (ls.zip d).map fun e => (e.1, e.2, BitVec.allOnes 64)

/-- A step of HTAKE in its fc (R175, R212): an empty hop slot is FALSE_START; the unit is taken and written in one fc. -/
def State.htakeStep (s : State) (t : Nat) (r : XfeRun) : State :=
  let q := r.q
  let fc := s.fc t
  let dir := q.w1 30 29
  let l := q.pline r.j
  match sget none (s.tile t).slots dir with
  | none => (s.modTile t fun x => { x with xfe := { x.xfe with halt := true } }).segBlockFault t 1 dir F.SEG_FLT_FS
  | some u =>
    match [l, l + 1024].find? fun l => (s.tile t).taken (l / 1024) with
    | some line => (s.modTile t (Tile.xWait r.ch fc (fc + 1) [])).slip t line 0 q.th
    | none =>
      let ls := wholeLines [l, l + 1024] [slice u.data 0 64, slice u.data 64 64]
      match s.writeBad t 0 q.th ls with
      | (some live, s) => s.modTile t fun x => x.xfeBad q (if live then 3 else 6) (culTile t) culNone
      | (none, s) => (State.writeLines t 0 q.th ls s).2.modTile t fun x =>
          { x.xDone r.ch fc (fc + 1) [] with slots := sput none x.slots dir none }

/-- A step of HSEND or AWRITE in its fc: the two lines are read, the unit departs or the row is written 4 fc later (Table 9-4). -/
def State.pairStep (s : State) (t : Nat) (r : XfeRun) (act : Bytes → LateAct) : State :=
  let fc := s.fc t
  let l := r.q.pline r.j
  s.xfeRead t r [(0, l), (1, l + 1024)] fun g s => s.modTile t fun x =>
    (x.xDone r.ch fc (fc + 1) []).addLate (xLate r.q (fc + 4) fc (act (sget [] g 0 ++ sget [] g 1)))

/-- Whether a tower port must wait: the tower is in retention or waking (R71), or the port has moved a block in this fc (R61). -/
def State.portWaits (s : State) (t : Nat) : Bool :=
  decide (s.fld .TWR_CFG [regionOf t] F.TWR_CFG_RET = 1) || (s.tile t).used.contains 16 || decide (s.fc t % 16 = 15)

/-- The tower lines of a step decoded: every uncorrectable line counts and is reported (R66, R67); the first of them, or the lines. -/
def State.twrReads (s : State) (t : Nat) (ls : List Nat) : Except Nat (List Bytes) × State :=
  let r := regionOf t
  ls.foldl (fun a l =>
    let p := (a.2.physLine r l).getD 0
    let x := a.2.twrRead r p 0 t
    (match a.1, x.1 with | .ok d, some b => .ok (d ++ [b]) | .ok _, none => .error p | e, _ => e, x.2)) (.ok [], s)

/-- A step of TREAD in its slot (R63, R64, R67, R211): written into the pad 24 fc later. -/
def State.treadStep (s : State) (t : Nat) (r : XfeRun) : State :=
  let q := r.q
  let fc := s.fc t
  if s.portWaits t then s.modTile t (Tile.xWait r.ch fc (slotFrom (fc + 1)) [])
  else
    let v := s.vaultClaim t (q.w1 25 0 + r.j) fc
    if v.1 then v.2.modTile t (Tile.xWait r.ch fc (slotFrom (fc + 1)) [])
    else match (v.2.modTile t fun x => { x with used := 16 :: x.used }).twrReads t (q.twrLinesOf r.j) with
      | (.error p, s) => s.modTile t fun x => x.xfeBad q 8 (culLayer (regionOf t) (p / layerLines)) (culTile t)
      | (.ok d, s) => s.modTile t fun x =>
          (x.xDone r.ch fc (slotFrom (fc + 1)) []).addLate (xLate q (fc + 24) fc (.pad (wholeLines (q.twrPads r.j) d)))

/-- A step of TWRITE, 4 fc before its slot (R63, R211): the pad lines are read, the block is written in the slot. -/
def State.twriteStep (s : State) (t : Nat) (r : XfeRun) : State :=
  let q := r.q
  let fc := s.fc t
  let ls := (q.twrPads r.j).zipIdx.map fun e => (e.2, e.1)
  s.xfeRead t r ls fun g s =>
    let slot := slotFrom (max (fc + 4) (if r.j = 0 then 0 else r.t + 1))
    s.modTile t fun x => (x.xDone r.ch slot (slotFrom (slot + 1) - 4) []).addLate
      (xLate q slot fc (.twr ((q.twrLinesOf r.j).zip (ls.map fun e => sget [] g e.1))))

/-- Whether the MXE holds the read ports of the accumulator in a fc: a row that reads old values 6 fc after its issue (R38, R121). -/
def Mxe.accReading (m : Mxe) (fc : Nat) : Bool := m.rows.any fun r => decide (r.t + 6 = fc) && r.reads
/-- Whether the MXE holds the write ports of the accumulator in a fc: a row that writes 13 fc after its issue (R38, R121). -/
def Mxe.accWriting (m : Mxe) (fc : Nat) : Bool := m.rows.any fun r => decide (r.t + 13 = fc) && r.writes

/-- A step of AREAD in its fc (R38, R39, R211): the pad is written 6 fc later. -/
def State.areadStep (s : State) (t : Nat) (r : XfeRun) : State :=
  let q := r.q
  let fc := s.fc t
  let row := q.arow r.j
  let l := q.pline r.j
  if (s.tile t).mxe.accReading fc || (s.tile t).taken (68 + row / 1024) then
    (s.modTile t (Tile.xWait r.ch fc (fc + 1) [])).slip t row 1 q.th
  else match (s.modTile t fun x => x.grab (68 + row / 1024) row 1 false).accRead t row 1 q.th with
    | .ok d s => s.modTile t fun x => (x.xDone r.ch fc (fc + 1) []).addLate
        (xLate q (fc + 6) fc (.pad (wholeLines [l, l + 1024] [slice d 0 64, slice d 64 64])))
    | .crc s => s.modTile t fun x => x.xfeBad q 5 (culTile t) culNone
    | .live s => s.modTile t fun x => x.xfeBad q 5 (culTile t) culNone

/-- A step of ICOPY in its fc (R214): an index line with every sixteenth entry, a source line, the destination line 4 fc later. -/
def State.icopyStep (s : State) (t : Nat) (r : XfeRun) : State :=
  let q := r.q
  let fc := s.fc t
  let i := r.j / q.rl; let m := r.j % q.rl
  s.xfeRead t r ((if m = 0 ∧ i % 16 = 0 then [(0, q.w0 47 32 + i / 16)] else []) ++ [(1, q.w0 15 0 + r.j)]) fun g s =>
    let idx := if m = 0 ∧ i % 16 = 0 then sget [] g 0 else r.idx
    let x := leNat (slice idx (4 * (i % 16)) 4)
    let s := s.modTile t (Tile.xDone r.ch fc (fc + 1) idx)
    if x < q.imax then
      s.modTile t fun y => y.addLate (xLate q (fc + 4) fc (.pad (wholeLines [q.w0 31 16 + x * q.rl + m] [sget [] g 1])))
    else if m = 0 && decide (x < 0xFFFFFFFE) then s.modTile t fun y => y.incSat .XFE_CNT [] F.XFE_CNT_ISKIP_CNT 1
    else s

/-- The step due on a channel in a fc (R210 to R214). -/
def State.xfeStep (t : Nat) (s : State) (c : XChan) : State :=
  match (s.tile t).xfe.run.find? (XfeRun.next c) with
  | none => s
  | some r =>
    if decide (s.fc t < r.due) then s
    else match r.q.xop with
      | 1 => s.treadStep t r
      | 2 => s.twriteStep t r
      | 3 => s.pairStep t r fun d => .hop ⟨d, r.q.hsDest, r.q.w1 19 19 = 1⟩
      | 4 => s.htakeStep t r
      | 5 => s.areadStep t r
      | 6 => s.pairStep t r (.acc (r.q.arow r.j))
      | _ => s.icopyStep t r

/-! ### Late effects -/

/-- A pad write of the XFE in its fc (R63, R211, R214, R215): lines whose bank is taken wait one fc (R28); a refused write is a fault. -/
def State.xfePad (s : State) (t : Nat) (l : Late) (ls : List (Nat × Bytes × BitVec 64)) : State :=
  match s.writeBad t l.unit l.q.th ls with
  | (some live, s) => s.modTile t fun x => (x.dropLate l).xfeBad l.q (if live then 3 else 6) (culTile t) culNone
  | (none, s) =>
    match State.writeLines t l.unit l.q.th ls s with
    | ([], s) => s.modTile t fun x => x.dropLate l
    | (e :: es, s) => (s.modTile t fun x => (x.dropLate l).addLate { l with due := s.fc t + 1, act := .pad (e :: es) }).slip t e.1 l.unit l.q.th

/-- The tower writes of a tile one slot later: a lost vault puts off those behind it too (R64). -/
def Tile.twrLater (fc : Nat) (t : Tile) : Tile :=
  { t with
    late := t.late.map fun l => match l.act with | .twr _ => { l with due := slotFrom (max l.due fc + 1) } | _ => l
    xfe := { t.xfe with
      run := xStepped .tower (fun r => if r.q.xop = 2 then { r with t := slotFrom (r.t + 1), due := r.due + 1 } else r) t.xfe.run
      free := sput 0 t.xfe.free (chanNo .tower) (sget 0 t.xfe.free (chanNo .tower) + 1) } }

/-- A tower write in its slot (R63, R64, R71). -/
def State.xfeTwr (s : State) (t : Nat) (l : Late) (ls : List (Nat × Bytes)) : State :=
  let r := regionOf t
  let fc := s.fc t
  if s.portWaits t then s.modTile t (Tile.twrLater fc)
  else
    let v := s.vaultClaim t ((ls.headD (0, [])).1 / 2) fc
    if v.1 then v.2.modTile t (Tile.twrLater fc)
    else
      let s := v.2.modTile t fun x => { (x.dropLate l) with used := 16 :: x.used }
      ls.foldl (fun s e => match s.physLine r e.1 with | some p => s.twrWrite r p e.2 | none => s) s

/-- A late effect of the tower port, of AREAD or ICOPY in its fc. -/
def State.xfeLand (t : Nat) (s : State) (l : Late) : State :=
  match l.act with
  | .pad ls => s.xfePad t l ls
  | .twr ls => if (s.tile t).late.contains l then s.xfeTwr t l ls else s
  | _ => s

/-- An accumulator write of AWRITE in its fc: it yields to the MXE (R38). -/
def State.accLand (t : Nat) (s : State) (l : Late) : State :=
  match l.act with
  | .acc row b =>
    let s := s.modTile t fun x => x.dropLate l
    if (s.tile t).mxe.accWriting (s.fc t) || (s.tile t).taken (64 + row / 1024) then
      (s.modTile t fun x => x.addLate { l with due := s.fc t + 1 }).slip t row 1 l.q.th
    else (s.modTile t fun x => x.grab (64 + row / 1024) row 1 false).accWrite t row b
  | _ => s

/-- The departure of a unit in its fc (R174, R212). -/
def State.hopLand (t : Nat) (s : State) (l : Late) : State :=
  match l.act with
  | .hop u => (s.modTile t fun x => x.dropLate l).hopOut t u (s.fc t) true
  | _ => s

/-- Late effects due in a fc that satisfy `p`, one after the other. -/
def State.landAll (s : State) (t : Nat) (p : Late → Bool) (f : State → Late → State) : State :=
  ((s.tile t).ripe (s.fc t) p).foldl f s

/-! ### Completion -/

/-- fc from the last step to the completion (Table 9-4, R214). -/
def QCmd.xtail (q : QCmd) : Nat :=
  match q.xop with | 1 => 24 | 2 => 0 | 4 => 0 | 5 => 6 | _ => 4

/-- The completion fc of a command whose steps are done (Table 9-4). -/
def XfeRun.done (r : XfeRun) : Nat := r.t + r.q.xtail

/-- A command completes: counted, its gauge add (R215). -/
def Tile.xfeDone (r : XfeRun) (t : Tile) : Tile :=
  let t := ({ t with xfe := { t.xfe with run := t.xfe.run.erase r } }).incWrap .XFE_CNT [] F.XFE_CNT_CMD_CNT 1
  if r.q.w1 59 59 = 1 then t.gadd (r.q.w1 58 55) 1 false else t

/-- The commands that complete by a fc: all steps done, nothing of them still to land. -/
def Tile.xfeOver (fc : Nat) (t : Tile) : List XfeRun :=
  t.xfe.run.filter fun r => decide (r.total ≤ r.j) && decide (r.done ≤ fc) && !(t.late.any fun l => decide (l.q = r.q) && decide (l.unit ≠ 3))

/-- The end of a fc in the XFE: commands complete, then a fault of this fc is raised (R175, R215). -/
def State.xfeEnd (s : State) (t : Nat) : State :=
  let fc := s.fc t
  let s := ((s.tile t).xfeOver fc).foldl (fun s r => s.modTile t (Tile.xfeDone r)) s
  match (s.tile t).xfe.bad with
  | some (q, code, c0, c1) => s.xfeFault t q code c0 c1
  | none => if (s.tile t).xfe.halt then s.modTile t fun x => x.xfeClear x.segment.isSome fc else s

/-- The fc in which the XFE has something to do, but for its late effects. -/
def Tile.xfeDues (t : Tile) (n : Nat) : List Nat :=
  (match t.xfq with
    | q :: _ => if t.xfe.stopped || t.xfe.run.any (XfeRun.next (xChan n q)) then [] else [t.xfeBeginFc n q]
    | [] => []) ++
    t.xfe.run.map fun r => if r.j < r.total then r.due else r.done

/-! ### Arrivals -/

/-- The suspect code of a region: kind 4 (Table 17-5). -/
def culRegion (r : Nat) : Nat := 0x4000 + r

/-- The number of a direction: 0 N, 1 E, 2 S, 3 W. -/
def dirNo : Dir → Nat
  | .n => 0 | .e => 1 | .s => 2 | .w => 3

/-- A scheduled unit reaches a tile on its incoming link `d` in fc `fc`: discarded while the tile's hops are shut (R169), passed on
(R174), or put into the hop slot, a full slot being HOP_COLLISION (R175). -/
def State.hopArrive (s : State) (t : Nat) (u : HopUnit) (d fc : Nat) : State :=
  if (s.tile t).hopShut then s
  else if u.dest ≠ t then s.hopOut t u fc false
  else if (sget none (s.tile t).slots d).isSome then s.segBlockFault t 2 d F.SEG_FLT_COLL
  else s.modTile t fun x => { x with slots := sput none x.slots d (some u) }

/-- SKEW of a region's boundary, R220: the unit is not delivered; recorded and reported, a fault of the segment; where nothing is to arrive
(R169) it is discarded without one. -/
def State.skew (s : State) (t src d : Nat) : State :=
  let r := regionOf t
  if (s.tile t).hopShut then s
  else
    let s := s.setFld .REG_CLK [r] F.REG_CLK_SKEW 1
    let s := s.sendReport (s.mkReport t (0x90 + (Config.faultCode 4).toNat) (culRegion r) (culRegion (regionOf src)) [])
    s.segBlockFault t 2 d F.SEG_FLT_COLL

/-- The units that reach a tile in its present fc, after the takes of that fc (R175). -/
def State.arrivals (s : State) (t : Nat) : State :=
  (s.hops.filter fun h => decide (h.tile = t) && decide (h.due ≤ s.fc t)).foldl
    (fun s h =>
      let s' := { s with hops := s.hops.erase h }
      if s.skewed h then s'.skew t h.src h.dir else s'.hopArrive t h.unit h.dir (s.fc t)) s

end Sys2Proof.Machine
end

