-- ==== Sys2Proof/Machine/CoreBase.lean ====
section
/-! DEFINITION. What the core of a tile does whoever asks for it: threads started and halted, faults, fetches, the flip, engine queues, writes
to the registers of the tile (R32 to R35, R42, R51, R52, R55, R79 to R82, R86 to R91, R95 to R98, R102 to R104, R172). -/
namespace Sys2Proof.Machine

/-! ### Writers (R56) -/

/-- The unit code of a writer (R56). -/
def writerUnit : Writer → Nat
  | .host _ => 8
  | .thread _ th => thUnit th
  | _ => 9
/-- The thread of a writer; 0 where it has none (R56). -/
def writerTh : Writer → Nat
  | .thread _ th => th
  | _ => 0
/-- Whether the writer is the management core. -/
def isMgmt : Writer → Bool
  | .mgmt => true
  | _ => false
/-- Whether the writer is a host. -/
def isHost : Writer → Bool
  | .host _ => true
  | _ => false

/-- A configuration write ignored: CFG_REJ in PAD_ERR (R56). -/
def Tile.cfgRej (t : Tile) (src : Writer) : Tile := t.padEvent F.PAD_ERR_CFG_REJ 0 (writerUnit src) (writerTh src)

/-! ### Threads -/

/-- A thread put into HALTED from any state, R79: its loop levels deactivate, an armed flip of the pace thread is disarmed (R97). -/
def Tile.halt (t : Tile) (th : Nat) : Tile :=
  let t := { t.setTh th { t.th th with st := .halted, loops := [] } with starts := sput none t.starts th none }
  if th = 0 then { t with flip := none } else t

/-- A HALTED thread is to start at a word with the next fc (R79). -/
def Tile.start (t : Tile) (th : Nat) (pc : BitVec 15) : Tile :=
  if (t.th th).st = .halted then { t with starts := sput none t.starts th (some pc) } else t

/-- THR_CTL[th].ENTRY. -/
def Tile.entry (t : Tile) (th : Nat) : BitVec 15 := BitVec.ofNat 15 (t.fld .THR_CTL [th] F.THR_CTL_ENTRY)

/-- The flag and counter of CORE_FLT and CORE_CNT that belong to a fault code (Tables 4-16, 4-17). -/
def Tile.coreFlag (t : Tile) (code : Nat) : Tile :=
  match code with
  | 1 => (t.setFld .CORE_FLT [] F.CORE_FLT_ILL 1).incSat .CORE_CNT [] F.CORE_CNT_ILL_CNT 1
  | 6 => (t.setFld .CORE_FLT [] F.CORE_FLT_WDOG 1).incSat .CORE_CNT [] F.CORE_CNT_GTO_CNT 1
  | _ => t

/-- CORE_FLT records a fault: the first while FLT is 0 is captured (R104). -/
def Tile.coreRecord (t : Tile) (th code : Nat) : Tile :=
  let t := if t.fld .CORE_FLT [] F.CORE_FLT_FLT = 0 then
      ((t.setFld .CORE_FLT [] F.CORE_FLT_PC (t.th th).pc.toNat).setFld .CORE_FLT [] F.CORE_FLT_THREAD th).setFld
        .CORE_FLT [] F.CORE_FLT_CODE code
    else t
  (t.setFld .CORE_FLT [] F.CORE_FLT_FLT 1).coreFlag code

/-- A fault of a thread's instruction that is one of segment `seg`, R98: the thread enters FAULT at the instruction, CORE_FLT records it, it is
reported and the segment aborts. -/
def State.coreFaultOf (s : State) (t th code : Nat) (seg : Option (Nat × Nat)) : State :=
  let pc := ((s.tile t).th th).pc.toNat
  let s := s.modTile t fun x => (x.coreRecord th code).setTh th { x.th th with st := .fault }
  s.segFaultOf t (s.mkReport t code (culTile t) culNone (natLe 8 (pc * 2 ^ 44 + th * 2 ^ 40 + code * 2 ^ 32 + 1))) seg

/-- A fault of a thread's instruction in the running segment, R98. -/
def State.coreFault (s : State) (t th code : Nat) : State := s.coreFaultOf t th code (s.tile t).segment

/-- What ends by itself in fc `fc` for a thread: a pause whose count is over, a wait whose condition was first shown three fc ago, which takes the
word shown then (R88, R102). -/
def Tile.threadGoes (fc : Nat) (t : Tile) (th : Nat) : Tile :=
  match (t.th th).st with
  | .pause till => if till ≤ fc then t.setTh th { t.th th with st := .run } else t
  | .wait rd _ _ _ (some (f, v)) _ => if f + 3 ≤ fc then t.setTh th ({ t.th th with st := .run }.setS rd v) else t
  | _ => t

/-- The fc in which a thread goes on by itself. -/
def ThrSt.due : ThrSt → List Nat
  | .pause till => [till]
  | .wait _ _ _ _ (some (f, _)) _ => [f + 3]
  | _ => []

/-! ### Engine queues (R90, R91) -/

/-- A queue's depth (R90, R92): 0 MXE, 1 VXE, 2 XFE, 3 send queue. -/
def qDepth (q : Nat) : Nat := match q with | 0 => 16 | 1 => 32 | 2 => 32 | _ => 8
/-- The queues of a tile by number. -/
def Tile.queue (t : Tile) (q : Nat) : List QCmd := match q with | 0 => t.mxq | 1 => t.vxq | 2 => t.xfq | _ => t.sendq
/-- The issue-slot code of the engine that frees entries of a queue. -/
def qSlot (q : Nat) : Nat := match q with | 0 => 3 | 1 => 5 | 2 => 4 | _ => 6
/-- Whether a queue is full for a push of this fc: an entry freed in this fc is not yet room (R90). -/
def Tile.qFull (t : Tile) (q : Nat) : Bool :=
  decide (qDepth q ≤ (t.queue q).length + if t.used.contains (qSlot q) then 1 else 0)
/-- An entry appended to a queue. -/
def Tile.qPush (t : Tile) (q : Nat) (c : QCmd) : Tile :=
  match q with
  | 0 => { t with mxq := t.mxq ++ [c] }
  | 1 => { t with vxq := t.vxq ++ [c] }
  | 2 => { t with xfq := t.xfq ++ [c] }
  | _ => { t with sendq := t.sendq ++ [c] }

/-- A stalled thread pushes in the first fc with room, and goes on (R91). -/
def Tile.stallGoes (fc : Nat) (t : Tile) (th : Nat) : Tile :=
  match (t.th th).st with
  | .stall q c _ => if t.qFull q then t else (t.qPush q ⟨c, th, fc⟩).setTh th { t.th th with st := .run }
  | _ => t
/-- Whether a thread is stalled on a queue that has, or will have in the next fc, room. -/
def Tile.stallDue (t : Tile) (th : Nat) : Bool :=
  match (t.th th).st with
  | .stall q _ _ => decide ((t.queue q).length < qDepth q)
  | _ => false

/-! ### Instruction fetch (R52, R81, R82) -/

/-- Number of 64 B lines of a code bank (R52). -/
def Tile.bankLines (t : Tile) (b : Nat) : Nat := t.fld (if b = 0 then .CODE_A else .CODE_B) [] F.CODE_A_SIZE * 64
/-- Pad line of line `l` of a code bank. -/
def Tile.bankLine (t : Tile) (b l : Nat) : Nat := t.fld (if b = 0 then .CODE_A else .CODE_B) [] F.CODE_A_BASE * 64 + l

/-- Whether the level of a body that begins at word `first` holds a line: the body's first line and the line after it (R82). -/
def holdsLine (first line : Nat) : Bool := decide (line = first / 16) || decide (line = first / 16 + 1)
/-- A line that arrives, held by the active levels that hold it (R81, R82). -/
def holdLine (line : Nat) (d : Bytes) (ls : List LoopRec) : List LoopRec :=
  ls.map fun l => if holdsLine l.first line then { l with held := (line, d) :: l.held.filter fun e => e.1 ≠ line } else l

/-- A line that arrives in a thread's fetch buffer of two lines and in the active levels that hold it. -/
def Tile.fetched (t : Tile) (th line : Nat) (d : Bytes) : Tile :=
  let x := t.th th
  t.setTh th { x with fetch := ((line, d) :: x.fetch.filter fun e => e.1 ≠ line).take 2, loops := holdLine line d x.loops }

/-- A fetch of the pace thread asks for a line of the active bank in this fc: a bank taken is a slip, and the fetch asks again in the next
(R28, R81). -/
def State.paceFetch (s : State) (t line : Nat) : State :=
  let y := s.tile t
  let l := y.bankLine (y.fld .CODE_CTL [] F.CODE_CTL_ACTIVE) line
  if y.taken (l / 1024) then
    (s.modTile t fun x => { x with refetch := x.refetch ++ [(s.fc t + 1, line)] }).slip t l 4 0
  else match (s.modTile t fun x => x.grab (l / 1024) l 4 true).padGet t (64 * l) 64 4 0 with
    | .ok d s => s.modTile t fun x => x.fetched 0 line d
    | .crc s => s.coreFault t 0 8
    | .live s => s

/-- A data access of the pace thread takes the slot of a bank from a fetch of the pace thread in the same fc, which waits as a slip (R81, R95). -/
def State.overFetch (s : State) (t bank : Nat) : State :=
  let x := s.tile t
  match x.claims.find? fun c => decide (c.bank = bank) && c.fetch with
  | none => s
  | some c =>
    let b := x.fld .CODE_CTL [] F.CODE_CTL_ACTIVE
    let line := c.line - x.bankLine b 0
    let again := x.claims.any fun c => decide (c.bank = bank) && !c.fetch
    let th := { x.th 0 with fetch := (x.th 0).fetch.filter fun e => e.1 ≠ line }
    if again then s
    else
      let s := s.modTile t fun x => { x.setTh 0 th with claims := x.claims.erase c, refetch := x.refetch ++ [(s.fc t + 1, line)] }
      s.slip t c.line 4 0

/-! ### The code bank flip (R95 to R97) -/

/-- A tile whose pace thread's levels exited in fc `fc`: a flip armed on one of them is due in the next (R95). -/
def Tile.flipExit (t : Tile) (th fc : Nat) (ex : List Nat) : Tile :=
  if th = 0 then
    match t.flip with
    | some f => match f.level with
      | some l => if ex.contains l then { t with flip := some { f with due := some fc } } else t
      | none => t
    | none => t
  else t

/-- A tile whose pace thread jumped: a flip armed on a level it left is disarmed (R97). -/
def Tile.flipLeave (t : Tile) (th : Nat) (ls : List LoopRec) : Tile :=
  if th = 0 then
    match t.flip with
    | some f => match f.level with
      | some l => if ls.any (fun r => r.level = l) || f.due.isSome then t else { t with flip := none }
      | none => t
    | none => t
  else t

/-- A gather thread at a flip, R96: neither HALTED nor in FAULT, it restarts at its ENTRY; every level and fetch buffer goes. -/
def Tile.flipThread (t : Tile) (th : Nat) : Tile :=
  let x := { t.th th with loops := [], fetch := [] }
  if th = 0 || decide (x.st = .halted) || decide (x.st = .fault) then t.setTh th x
  else t.setTh th { x with st := .run, pc := t.entry th }

/-- A flip takes effect, R96: the active bank toggles, the pace thread stands at the target with the flip line in its fetch buffer, gather
threads restart. A pace thread that is in PAUSE, WAIT, GUN or STALL then stays so, with its PC at the target (DESIGN CHOICE, log 70: R96 speaks
of one that issues in that fc). -/
def Tile.applyFlip (t : Tile) : Tile :=
  match t.flip with
  | some f =>
    let t := t.setFld .CODE_CTL [] F.CODE_CTL_ACTIVE (1 - t.fld .CODE_CTL [] F.CODE_CTL_ACTIVE)
    let t := (List.range 16).foldl Tile.flipThread t
    let t := t.setTh 0 { t.th 0 with pc := f.target, fetch := (f.line.map fun d => (f.target.toNat / 16, d)).toList }
    { t with flip := none, refetch := [] }
  | none => t

/-- An armed flip with M = 1 takes effect in the fc after its level has exited by its count (R95). -/
def Tile.flipDue (fc : Nat) (t : Tile) : Tile :=
  match t.flip with
  | some f => match f.due with
    | some x => if x < fc then t.applyFlip else t
    | none => t
  | none => t

/-- The read of the flip line asks for its slot in this fc, as a fetch of the pace thread (R95); a flip whose line has not come waits. -/
def State.flipRead (s : State) (t : Nat) : State :=
  let y := s.tile t
  match y.flip with
  | some f =>
    if f.line.isSome || decide (s.fc t < f.req) then s
    else
      let l := y.bankLine (1 - y.fld .CODE_CTL [] F.CODE_CTL_ACTIVE) (f.target.toNat / 16)
      if y.taken (l / 1024) then (s.modTile t fun x => { x with flip := some { f with req := s.fc t + 1 } }).slip t l 4 0
      else match (s.modTile t fun x => x.grab (l / 1024) l 4 false).padGet t (64 * l) 64 4 0 with
        | .ok d s => s.modTile t fun x => { x with flip := some { f with line := some d } }
        | .crc s => (s.modTile t fun x => { x with flip := some { f with line := some [] } }).coreFault t 0 8
        | .live s => s
  | none => s

/-- The fetches of the pace thread that wait for a slot in this fc. -/
def State.refetches (s : State) (t : Nat) : State :=
  let ls := (s.tile t).refetch.filter fun e => decide (e.1 ≤ s.fc t)
  let s := s.modTile t fun x => { x with refetch := x.refetch.filter fun e => decide (s.fc t < e.1) }
  ls.foldl (fun s e => s.paceFetch t e.2) s

/-! ### Writes to the registers of a tile -/

/-- PAD_PHASE (R33): written by the management core only. -/
def Tile.wrPhase (src : Writer) (v : W64) (t : Tile) : Tile := if isMgmt src then t.write .PAD_PHASE [] v else t

/-- THR_BND (R32): only while the thread is halted. -/
def Tile.wrBnd (src : Writer) (th : Nat) (v : W64) (t : Tile) : Tile :=
  if (t.th th).st = .halted then t.write .THR_BND [th] v else t.cfgRej src

/-- RING_CFG (R42): with EN 1 only a write that clears EN; setting EN checks the geometry and zeroes the pointers. -/
def Tile.wrRing (src : Writer) (n : Nat) (v : W64) (t : Tile) : Tile :=
  let old := t.ring n
  let w := writeFields Reg.RING_CFG.info.flds old v
  if F.RING_CFG_EN.get old = 1 then
    if F.RING_CFG_EN.get v = 0 then t.setReg .RING_CFG [n] w else t.cfgRej src
  else if F.RING_CFG_EN.get v = 0 then t.setReg .RING_CFG [n] w
  else if ringGeom w then
    let t := (t.setReg .RING_CFG [n] w).setReg .RING_PTR [n] 0
    { t.setFld .RING_STAT [n] F.RING_STAT_FILL 0 with ringD := sput (0, 0) t.ringD n (0, 0) }
  else (t.setReg .RING_CFG [n] (F.RING_CFG_EN.set w 0)).cfgRej src

/-- RING_HREL (R42, R44, R51): with HOSTR 1 the host releases COUNT entries at the head, and a count of 0 releases nothing; an advance of a
disabled ring or by another unit than its consumer is BOUNDS; one beyond the occupancy sets UND. -/
def Tile.wrHrel (src : Writer) (n : Nat) (v : W64) (t : Tile) : Tile :=
  let c := F.RING_HREL_COUNT.get v
  if t.fld .RING_CFG [n] F.RING_CFG_HOSTR = 0 then t.setFld .RING_STAT [n] F.RING_STAT_UND 1
  else if c = 0 then t
  else if decide (t.fld .RING_CFG [n] F.RING_CFG_EN = 0) || decide (t.fld .RING_CFG [n] F.RING_CFG_CONS ≠ 8) || !isHost src then
    t.padEvent F.PAD_ERR_BOUNDS (t.entryAddr n (t.head n) / 64 % 65536) (writerUnit src) (writerTh src)
  else if c ≤ t.avail n then t.advHead n c
  else t.setFld .RING_STAT [n] F.RING_STAT_UND 1

/-- CODE_A or CODE_B (R52, R55): in range, and the active bank's only while all threads are halted. -/
def Tile.wrBank (src : Writer) (b : Nat) (v : W64) (t : Tile) : Tile :=
  let r : Reg := if b = 0 then .CODE_A else .CODE_B
  let base := F.CODE_A_BASE.get v; let size := F.CODE_A_SIZE.get v
  if base + size ≤ 1024 && size ≤ 32 && (t.allHalted || decide (t.fld .CODE_CTL [] F.CODE_CTL_ACTIVE ≠ b)) then t.write r [] v
  else t.cfgRej src

/-- CODE_CTL.ACTIVE (R55): only while all threads are halted. -/
def Tile.wrCodeCtl (src : Writer) (v : W64) (t : Tile) : Tile :=
  if t.allHalted then t.setFld .CODE_CTL [] F.CODE_CTL_ACTIVE (F.CODE_CTL_ACTIVE.get v) else t.cfgRej src

/-- THR_CTL (R79): ENTRY, then HALT, then START. -/
def Tile.wrThrCtl (th : Nat) (v : W64) (t : Tile) : Tile :=
  let t := t.setFld .THR_CTL [th] F.THR_CTL_ENTRY (F.THR_CTL_ENTRY.get v)
  let t := if F.THR_CTL_HALT.get v = 1 then t.halt th else t
  if F.THR_CTL_START.get v = 1 then t.start th (t.entry th) else t

/-- SEG_CTL.RESTORE (R172): a halted pace thread is restored from the checkpoint of the current segment into GUN. -/
def Tile.wrRestore (src : Writer) (fc : Nat) (t : Tile) : Tile :=
  let slot := t.fld .SEG_STAT [] F.SEG_STAT_SLOT
  match sget none t.ckpt slot with
  | some c =>
    if decide ((t.th 0).st = .halted) && decide (t.fld .SEG_STAT [] F.SEG_STAT_CKV = 1) then
      t.setTh 0 { c.pace with st := .gun (t.fld .SEG_STAT [] F.SEG_STAT_CH) 0 fc true }
    else t.cfgRej src
  | none => t.cfgRej src

/-- A write to a register of a tile by a writer that may reach it: the conditions of its chapter, else the access codes of its fields. -/
def State.wrTile (src : Writer) (t : Nat) (r : Reg) (i : List Nat) (v : W64) (s : State) : State :=
  let k := i.getD 0 0
  match r with
  | .PAD_PHASE => s.modTile t (Tile.wrPhase src v)
  | .THR_BND => s.modTile t (Tile.wrBnd src k v)
  | .RING_CFG => s.modTile t (Tile.wrRing src k v)
  | .RING_HREL => s.modTile t (Tile.wrHrel src k v)
  | .CODE_A => s.modTile t (Tile.wrBank src 0 v)
  | .CODE_B => s.modTile t (Tile.wrBank src 1 v)
  | .CODE_CTL => s.modTile t (Tile.wrCodeCtl src v)
  | .THR_CTL => s.modTile t (Tile.wrThrCtl k v)
  | .GAUGE => s.modTile t fun x => x.gchange (.csr k v)
  | .SEG_CTL => if F.SEG_CTL_RESTORE.get v = 1 then s.modTile t (Tile.wrRestore src (s.fc t)) else s
  | .HEAT_IN => { s with heats := s.heats ++ [(t, v)] }
  | .EP_DONE => { s with epDones := s.epDones ++ [(t, v.truncate 32)] }
  | _ => s.modTile t fun x => x.write r i v

/-- A write of a thread to its own tile's window; an offset that names no register sets CFG_REJ (R103). -/
def State.csrWrite (t th o : Nat) (v : W64) (s : State) : State :=
  let src : Writer := .thread (Fin.ofNat 1152 t) (Fin.ofNat 16 th)
  match Reg.tileAt o with
  | none => s.modTile t fun x => x.cfgRej src
  | some (r, i) => s.wrTile src t r i v

/-- The CSRW writes that take effect in this fc (R102). -/
def State.csrLand (s : State) (t : Nat) : State :=
  let fc := s.fc t
  let ls := (s.tile t).csrw.filter fun e => decide (e.1 ≤ fc)
  let s := s.modTile t fun x => { x with csrw := x.csrw.filter fun e => decide (fc < e.1) }
  ls.foldl (fun s e => s.csrWrite t e.2.1 e.2.2.1 e.2.2.2) s

/-! ### The core in a fc -/

/-- What happens in the core with a fc: CSRW writes take effect, a flip with M = 1 is due, pauses and waits end (R88, R95, R102). -/
def State.coreFirst (s : State) (t : Nat) : State :=
  let s := s.csrLand t
  let fc := s.fc t
  s.modTile t fun x => (List.range 16).foldl (Tile.threadGoes fc) (x.flipDue fc)

/-- What happens in the core once the engines have begun their commands of the fc: stalled threads push (R91). -/
def State.coreStalls (s : State) (t : Nat) : State :=
  let fc := s.fc t
  s.modTile t fun x => (List.range 16).foldl (Tile.stallGoes fc) x

/-- What the pace thread's fetches do with the slots that are left at the end of a fc (R81, R95). -/
def State.coreLast (s : State) (t : Nat) : State := (s.flipRead t).refetches t

/-- The fc in which the core has something to do by itself; 0 stands for now. -/
def Tile.coreDues (t : Tile) : List Nat :=
  t.csrw.map (fun e => e.1) ++ t.refetch.map (fun e => e.1) ++
    (match t.flip with
      | some f => (match f.due with | some x => [x + 1] | none => []) ++ (if f.line.isNone then [f.req] else [])
      | none => []) ++
    (List.range 16).flatMap fun th => (t.th th).st.due ++ (if t.stallDue th then [0] else [])

end Sys2Proof.Machine
end

