-- ==== Sys2Proof/Machine/Time.lean ====
section
/-! DEFINITION. Time: what a reference period does to the domains, to wall time and to the tiles; the work of a tile in a fc; bringing the
clock to a stated fc or wall time; issue slots (R4, R5, R28, R78, R216, R221). -/
namespace Sys2Proof.Machine

/-- What `k` periods of the die reference (4/7 ns each) add to a domain's clock: m/64 of a fc each, less the stretch still to be
spent, up to the fc at which a freeze stops it (R4, R218, R221, R418). -/
def Domain.run (x : Domain) (m k : Nat) : Domain :=
  if x.formed then
    let p := x.phase + m * k
    let spent := min x.debt p
    let q := p - spent
    let fc := x.fc + q / 64
    match x.stop with
    | some f => if f ≤ fc then { x with fc := max x.fc f, phase := 0, debt := x.debt - spent }
                else { x with fc := fc, phase := q % 64, debt := x.debt - spent }
    | none => { x with fc := fc, phase := q % 64, debt := x.debt - spent }
  else x

/-- How many fc end in a tile as the domains go from `s` to `s'`: those its domain counted; one where it is in no formed domain. -/
def fcEnds (s s' : State) (t : Nat) : Nat :=
  match s.tilePolder t with
  | some d => if (s.dom d).formed then (s'.dom d).fc - (s.dom d).fc else 1
  | none => 1

/-- Units of wtSub in one unit of wt. -/
def wtParts : Nat := 7 * rateOne.toNat

/-- Wall time units of `k` reference periods: 1,024/7 of 1/256 ns each, rated by the timebase's adjustment (R5, R229); the calendar counts
1/1,792 ns by its own crystal (R232, R413). With PPS_EN set, PPS_OUT rises at each whole second (R231). -/
def State.runWt (s : State) (k : Nat) : State :=
  let u := s.wtSub + 1024 * k * (rateOne + s.rateAdj).toNat
  let wt := s.wt + u / wtParts
  let sec := 256000000000
  let out := if decide (s.wt / sec = wt / sec) || decide (s.fld .TB_CTL [] F.TB_CTL_PPS_EN = 0) then s.out
    else s.out ++ (List.range (wt / sec - s.wt / sec)).map fun i => .pps (s.wt / sec + 1 + i)
  { s with wt := wt, wtSub := u % wtParts, ref := s.ref + k, out := out, cal := if s.xtalOff then s.cal else s.cal + 1024 * k }

/-! ### Frequency (R222, R224, R225) -/

/-- The regions of a polder. -/
def State.regionsIn (s : State) (d : Nat) : List Nat := (List.range 24).filter fun r => decide (s.polderOf r = some d)
/-- The least of a list of steps m, 64 where it is empty. -/
def least (l : List Nat) : Nat := l.foldl min 64

/-- The three terms of R222 for a domain: FSET, FMON, FHALF; a domain without regions shows FHALF at its reset value. -/
def State.freqTerms (s : State) (d : Nat) : Nat × Nat × Nat :=
  let rs := s.regionsIn d
  (s.app .DOM_CFG [d] F.DOM_CFG_FSET, least (rs.map fun r => s.fld .REG_CLK [r] F.REG_CLK_FMON),
    if rs.isEmpty then 19 else least (rs.map fun r => s.fld .HALF_STAT [halfOf r] F.HALF_STAT_FMAXA))

/-- The applied frequency of a domain becomes `m`, with the lowest code among the terms that equal it (R222); while none does, before a switch
fc, LIM stays. -/
def State.setFapp (s : State) (d m : Nat) : State :=
  let t := s.freqTerms d
  let lim := if m = t.1 then 0 else if m = t.2.1 then 1 else if m = t.2.2 then 2 else s.fld .DOM_STAT [d] F.DOM_STAT_LIM
  (s.setFld .DOM_STAT [d] F.DOM_STAT_FAPP m).setFld .DOM_STAT [d] F.DOM_STAT_LIM lim

/-- A domain that has reached a switch fc runs at the new frequency (R222). -/
def State.switchDue (s : State) (d : Nat) : State :=
  let x := s.dom d
  match x.switch with
  | (f, m) :: rest => if x.fc < f then s else (s.setDom d { x with switch := rest }).setFapp d m
  | [] => s

/-- STATE of the freeze (Table 18-11): 0 RUN, 1 FREEZING, 2 FROZEN, 3 FULL, 4 RESUMING. -/
def State.frzState (s : State) : Nat := s.fld .FRZ_STAT [] F.FRZ_STAT_STATE
/-- Whether the device is frozen (R419). -/
def State.isFrozen (s : State) : Bool := decide (s.frzState = 2) || decide (s.frzState = 3)

/-- A freeze launched by trigger `src`, with the FRZNO of a followed one (R417, R418, R421): FRZ_WT, NO and SRC are recorded, every formed
domain d stops at F_d = L_d + 16. A trigger while a freeze is on is ignored and counted (R419). -/
def State.launch (s : State) (src : Nat) (no : Option Nat) : State :=
  if s.frzState ≠ 0 then s.incSat .FRZ_STAT [] F.FRZ_STAT_IGN_CNT 1
  else
    let own := s.app .LINK_ID [] F.LINK_ID_PEERID * 65536 + s.fld .FRZ_CNT [] F.FRZ_CNT_CNT
    let s := if no.isNone then s.incWrap .FRZ_CNT [] F.FRZ_CNT_CNT 1 else s
    let s := s.setFld .FRZ_STAT [] F.FRZ_STAT_NO (no.getD own)
    let s := (s.setFld .FRZ_STAT [] F.FRZ_STAT_SRC src).setFld .FRZ_STAT [] F.FRZ_STAT_STATE 1
    let s := s.setReg .FRZ_WT [] (BitVec.ofNat 64 s.ns)
    (List.range 8).foldl (fun s d =>
      let x := s.dom d
      if x.formed then (s.setDom d { x with stop := some (x.fc + 16) }).setFld .FRZ_FC [d] F.FRZ_FC_F (x.fc + 16) else s) s

/-- Whether the freeze gauge shows its condition with the trigger enabled (R417). -/
def State.gaugeShows (s : State) : Bool :=
  decide (s.fld .FRZ_CFG [] F.FRZ_CFG_GAUGE = 1) &&
    (s.tile (s.fld .FRZ_GAUGE [] F.FRZ_GAUGE_TILE)).gaugeMet (s.fld .FRZ_GAUGE [] F.FRZ_GAUGE_G) (s.fld .FRZ_GAUGE [] F.FRZ_GAUGE_THR)

/-- The first fc in which the freeze gauge shows its condition launches a freeze (R417). -/
def State.gaugeTrigger (s : State) : State :=
  let now := s.gaugeShows
  let s1 := { s with gaugeTrig := now }
  if now && !s.gaugeTrig then s1.launch 3 none else s1

/-- For how many of `n` fc a tile was active (Table 14-5): a begun engine command not yet complete, or a thread that issued in the first. -/
def Tile.activeFc (t : Tile) (n : Nat) : Nat :=
  if t.mxe.loads.isEmpty && t.mxe.streams.isEmpty && t.mxe.rows.isEmpty && t.vxe.run.isEmpty && t.xfe.run.isEmpty then
    (if t.used.contains 0 then min n 1 else 0)
  else n

/-- The tiles of a polder, and for how many tile-fc of `n` fc they were active (R343). -/
def State.tileFc (s : State) (d n : Nat) : Nat × Nat :=
  (48 * (regionsOf (s.app .POLDER_CFG [d] F.POLDER_CFG_RMASK)).length,
    s.tiles.foldl (fun k e => if s.tilePolder e.1 = some d then k + e.2.activeFc n else k) 0)

/-- A fc of domain `d` that began before the end of a window is counted in it, although it ends after it (R345). -/
def Window.span (w : Window) (d res act : Nat) : Window :=
  if w.spans.contains d then
    { w with
      meters := w.meters.modify d fun m => (m.modify 0 (· + res)).modify 1 (· + act)
      spans := w.spans.filter (· ≠ d) }
  else w

/-- The tile-fc meters as the domains go from `s` to `s'` (R343). -/
def State.meterFc (s s' a : State) : State :=
  (List.range 8).foldl (fun a d =>
    let n := (s'.dom d).fc - (s.dom d).fc
    if n = 0 then a
    else
      let r := s.tileFc d n
      let a := (a.meterAdd d 0 (n * r.1)).meterAdd d 1 r.2
      if a.windows.isEmpty then a
      else (let q := s.tileFc d 1; { a with windows := a.windows.map fun w => w.span d q.1 q.2 })) a

/-- The meters of a polder, indices 0 to 14. -/
def State.mtr (s : State) (d : Nat) : List Nat := (List.range 15).map fun i => (s.reg .MTR [d, i]).toNat
/-- The statement window of a polder. -/
def State.meter (s : State) (d : Nat) : Option Meter := sget none s.meters d
/-- The chain of a polder. -/
def State.chain (s : State) (d : Nat) : Chain := sget Chain.init s.chains d
/-- The chain of a polder replaced. -/
def State.setChain (s : State) (d : Nat) (x : Chain) : State := { s with chains := sput Chain.init s.chains d x }

/-- The next window boundary after a time, a multiple of the applied interval (R345). -/
def State.nextWindow (s : State) (ns : Nat) : Nat :=
  let i := max 1 (s.app .METER_CFG [] F.METER_CFG_INTERVAL) * 1000000000
  (ns / i + 1) * i

/-- Whether a domain's clock runs: not stopped by a thermal trip (R415) nor at the fc of a freeze (R418). -/
def State.domOn (s : State) (d : Nat) : Bool :=
  !s.clockStop && match (s.dom d).stop with
    | some f => decide ((s.dom d).fc < f)
    | none => true

/-- The windows that have ended and for which a polder is owed a statement: those that end after its own start (R346). -/
def State.owed (s : State) (d : Nat) : List Window :=
  match s.meter d with
  | some m => s.windows.filter fun w => decide (m.start < nsWt w.ends)
  | none => []

/-- The seal of a polder over the interval up to `e` falls due; its MSEQ is that of the statement of the same interval, which follows those
owed (R327, Table 13-3). In RETURNED the chip signs none (R379). -/
def State.sealMark (s : State) (e d : Nat) : State :=
  let c := s.chain d
  if decide (s.fld .RCPT_CFG [d] F.RCPT_CFG_EN = 1) && decide (s.polderState d = 2) && decide (s.fuses.lc ≠ 3) && decide (c.start < e) then
    s.setChain d { c with due := c.due ++ [(e, (s.reg .MTR [d, 15]).toNat + (s.owed d).length)] }
  else s

/-- The running window has ended as time went from `s` on: its meters stand as they are now, a fc in progress belongs to it (the photo-finish
rule of R345), the seals of its interval fall due (R327), and the next window runs to the next boundary. -/
def State.closeWindow (s a : State) : State :=
  let e := s.windowEnd
  let a := (List.range 8).foldl (fun a d => a.sealMark (nsWt e) d) a
  { a with
    windowEnd := a.nextWindow (max e a.ns)
    windows := a.windows ++ [⟨e, a.app .METER_CFG [] F.METER_CFG_INTERVAL, (List.range 8).map a.mtr,
      (List.range 8).map fun d => a.app .POLDER_CFG [d] F.POLDER_CFG_RMASK,
      (List.range 8).filter fun d => (a.dom d).formed && a.domOn d && decide ((a.dom d).fc = (s.dom d).fc)⟩] }

/-- Time goes on by `k` reference periods in which no tile has work to do and no domain switches its frequency: every formed domain counts, wall time grows, in each tile whose
fc has ended its changes land, the towers' write-backs are made, the tile-fc meters count, the freeze gauge is looked at; a meter
window may end. -/
def State.pass (s : State) (k : Nat) : State :=
  let s1 := (List.range 8).foldl (fun a d => a.setDom d ((s.dom d).run (s.fapp d) k)) s
  let s2 := { State.meterFc s s1 (s1.runWt k) with raised := [] }
  let s3 := s.tiles.foldl (fun a e =>
    if decide (0 < fcEnds s s1 e.1) && e.2.busyFc then a.setTile e.1 (e.2.endFc (fcEnds s s1 e.1) (s.fc e.1)) else a) s2
  let s4 := (List.range 8).foldl State.switchDue s3.wbPass.gaugeTrigger
  if nsWt s.windowEnd ≤ s4.wt then State.closeWindow s s4 else s4

/-- Reference periods until wall time `w`, if it is not there yet. -/
def State.ticksToWt (s : State) (w : Nat) : Nat :=
  let r := 1024 * (rateOne + s.rateAdj).toNat
  if w ≤ s.wt then 0 else ((w - s.wt) * wtParts - s.wtSub + r - 1) / r

/-- Reference periods until domain `d` reaches fc `n`. -/
def State.ticksTo (s : State) (d n : Nat) : Nat :=
  let x := s.dom d
  if x.formed && decide (x.fc < n) then
    let need := (n - x.fc) * 64 + x.debt - x.phase
    let m := max 1 (s.fapp d)
    (need + m - 1) / m
  else 0

/-- Whether the clock of a tile runs. -/
def State.clockOn (s : State) (t : Nat) : Bool :=
  match s.tilePolder t with
  | some d => s.domOn d
  | none => !s.clockStop

/-- Whether a tile has a fc of its own: its polder's domain is formed and its clock runs. -/
def State.clocked (s : State) (t : Nat) : Bool :=
  match s.tilePolder t with
  | some d => (s.dom d).formed && s.domOn d
  | none => false

/-! ### The work of a tile in a fc -/

/-- The fc in which a tile has something to do by itself; 0 stands for now: begins, steps, reads, late effects, completions, units that arrive
(DEDUCED, log 68: the spec gives these their fc, so that no command is needed for time to reach them). -/
def State.dues (s : State) (t : Nat) : List Nat :=
  let x := s.tile t
  (x.late.map Late.due) ++ x.xfeDues t ++ x.mxe.dues x.mxq ++ x.vxe.dues x.vxq ++ x.coreDues ++
    ((s.hops.filter fun h => h.tile = t).map HopFly.due) ++
    (if x.xfe.bad.isSome || x.xfe.halt || x.mxe.bad.isSome || x.vxe.lost.isSome || !x.gpend.isEmpty then [0] else [])

/-- The phases of a fc in a tile, in the order in which they come: accesses to one bank in one fc are taken by slot priority (R28, Table 2-2),
and within the XFE takes come before arrivals (R175), arrivals before the tile's own departures (R175). -/
def State.phase (t : Nat) (s : State) (i : Nat) : State :=
  let pad := fun (l : Late) => decide (l.unit = 1)
  match i with
  | 0 => (s.coreFirst t).xfeBegin t
  | 1 => [XChan.kN, .kE, .kS, .kW].foldl (State.xfeStep t) s
  | 2 => s.arrivals t
  | 3 => s.landAll t (fun l => decide (l.unit = 0)) (State.hopLand t)
  | 4 => [XChan.sN, .sE, .sS, .sW].foldl (State.xfeStep t) s
  | 5 => s.landAll t pad (State.xfeLand t)
  | 6 => s.xfeStep t .tower
  | 7 => s.xfeStep t .acc
  | 8 => s.xfeStep t .copy
  | 9 => s.landAll t pad (State.accLand t)
  | 10 => s.xfeEnd t
  | 11 => s.mxeRows t
  | 12 => s.mxeEnds t
  | 13 => s.mxeBegin t
  | 14 => s.loadUnit t
  | 15 => s.streamUnit t
  | 16 => s.vxeBegin t
  | 17 => s.vxeWrites t
  | 18 => s.vxeStep t
  | 19 => s.vxeEnd t
  | _ => s.coreStalls t

/-- The number of phases. -/
def phases : Nat := 21

/-- A tile's work of its present fc up to phase `n`, if it has any. -/
def State.upTo (s : State) (n t : Nat) : State :=
  if s.clocked t && (s.dues t).any fun f => decide (f ≤ s.fc t) then (List.range n).foldl (State.phase t) s else s

/-- A tile's work of its present fc. -/
def State.work (s : State) (t : Nat) : State := s.upTo phases t

/-- The work of all tiles in their present fc, in ascending tile index (R64), before the clock leaves it; a CSRW in a tile without a clock takes
effect as time goes on. -/
def State.workAll (s : State) : State :=
  s.tiles.foldl (fun a e => if a.clocked e.1 then (a.work e.1).coreLast e.1 else
    if e.2.csrw.isEmpty then a else (a.modTile e.1 fun x => { x with csrw := x.csrw.map fun c => (0, c.2) }).csrLand e.1) s

/-- Reference periods until the next fc in which a tile has something to do or a domain switches its frequency, or until the one in which the
running meter window ends; `k` if it is none within that time. -/
def State.nextDue (s : State) (k : Nat) : Nat :=
  let k := min k (max 1 (s.ticksToWt (nsWt s.windowEnd) - 1))
  let k := s.doms.foldl (fun k e => match e.2.switch with
    | (f, _) :: _ => if s.domOn e.1 then min k (s.ticksTo e.1 f) else k
    | [] => k) k
  s.tiles.foldl (fun k e =>
    match s.tilePolder e.1 with
    | some d => if s.clocked e.1 then (s.dues e.1).foldl (fun k f => min k (s.ticksTo d (max f ((s.dom d).fc + 1)))) k else k
    | none => k) k

/-- Time goes on by `k` reference periods, from one fc with work to the next (at most `n` of them). -/
def State.advanceGo : Nat → Nat → State → State
  | 0, _, s => s
  | n + 1, k, s =>
    let s := s.workAll
    let j := max 1 (s.nextDue k)
    let s := s.pass j
    if k ≤ j then s else State.advanceGo n (k - j) s

/-- Time goes on by `k` reference periods: no tile leaves a fc before its work of that fc is done; the fc reached is still to be worked. -/
def State.advance (s : State) (k : Nat) : State := State.advanceGo k k s

/-- The clock brought to fc `n` of domain `d`, if it is not there yet, over the switch fc on the way: an event at a stated fc stands at that fc. -/
def State.toFc (s : State) (d n : Nat) : State :=
  let s := ((s.dom d).switch.filter fun w => decide (w.1 < n)).foldl (fun s w => s.advance (s.ticksTo d w.1)) s
  s.advance (s.ticksTo d n)

/-- The clock brought to fc `n` of a tile's domain. -/
def State.tileToFc (s : State) (t n : Nat) : State :=
  match s.tilePolder t with
  | some d => s.toFc d n
  | none => s

/-- The next fc of a tile: one fc of its domain, or one reference period where it is in no formed domain. -/
def State.nextFc (s : State) (t : Nat) : State :=
  match s.tilePolder t with
  | some d => if (s.dom d).formed then s.toFc d ((s.dom d).fc + 1) else s.advance 1
  | none => s.advance 1

/-- What happens in some fc of a domain happens only if that fc runs: nothing where the clock is, or by then would be, stopped. -/
def State.onDom (s : State) (d : Nat) (k : State → State) : State :=
  if s.domOn d then (let s' := k s; if s'.domOn d then s' else s) else s

/-- What happens in some fc of a tile happens only if that fc runs. -/
def State.onClock (s : State) (t : Nat) (k : State → State) : State :=
  if s.clockOn t then (let s' := k s; if s'.clockOn t then s' else s) else s

/-! ### Events of a tile and free slots -/

/-- The clock brought, at most `n` times, to the fc in which an event of a tile is due, as long as that fc lies ahead. -/
def State.seek (t : Nat) (due : State → Option Nat) : Nat → State → State
  | 0, s => s
  | n + 1, s =>
    match due s with
    | some f => if f ≤ s.fc t || !s.clocked t then s else State.seek t due n (s.tileToFc t f)
    | none => s

/-- The tries that an event or an access has, more than there can be fc in which the engines' queued commands take slots (R90). -/
def tries : Nat := 2 ^ 26

/-- The issue slot of a unit of a tile (0 core, 4 XFE begin, 3 MXE begin, 5 VXE begin, 16 tower port): a unit that has used its slot of this
fc uses that of the next (R78, R120, R146, R210); the engines' work of that fc comes first. -/
def State.atSlot (s : State) (t u : Nat) : State := (if (s.tile t).used.contains u then s.nextFc t else s).work t
/-- The slot taken. -/
def State.takeSlot (s : State) (t u : Nat) : State := s.modTile t fun x => { x with used := u :: x.used }

/-- The fc in which an access of the pace thread to a bank finds its slot: scheduled requesters of higher priority go first, each fc of waiting is a
slip (R28), and its own fetch gives way (R81). -/
def State.paceSlot (t line : Nat) : Nat → State → State
  | 0, s => s
  | n + 1, s =>
    let s := s.overFetch t (line / 1024)
    if (s.tile t).taken (line / 1024) && s.clocked t then
      State.paceSlot t line n (((s.slip t line 4 0).nextFc t).work t)
    else s.modTile t fun x => x.grab (line / 1024) line 4 false

/-- The fc in which a requester without a priority finds a slot of a bank that nobody has claimed (R29); a pad without a clock has none to wait
for. -/
def State.freeGo (t line unit : Nat) : Nat → State → State
  | 0, s => s
  | n + 1, s =>
    if s.clocked t then
      if (s.tile t).claims.any fun c => decide (c.bank = line / 1024) then State.freeGo t line unit n ((s.nextFc t).work t)
      else s.modTile t fun x => x.grab (line / 1024) line unit false
    else s
/-- The same of a requester outside the tile, once the engines have done their work of the fc (R29, R34). -/
def State.freeSlot (t line unit n : Nat) (s : State) : State := State.freeGo t line unit n (s.work t)

/-- The slot of a thread's access. -/
def State.threadSlot (s : State) (t th line : Nat) : State :=
  if th = 0 then State.paceSlot t line tries s else State.freeGo t line 5 tries s

/-- Pad lines read by a requester without a priority at pad address `a`, ascending, each in a free slot (R26, R29, R37). -/
def State.freeLoad (s : State) (t a n unit : Nat) : Nat → PadRes Bytes
  | 0 => .ok [] s
  | k + 1 =>
    let s := State.freeSlot t (a / 64) unit tries s
    if n ≤ 64 then s.padGet t a n unit 0
    else match s.padGet t a 64 unit 0 with
      | .ok b s =>
        match s.freeLoad t (a + 64) (n - 64) unit k with
        | .ok c s => .ok (b ++ c) s
        | r => r
      | r => r

/-- Pad lines written by a requester without a priority at pad address `a`, ascending, each in a free slot (R26, R29, R30). -/
def State.freeStore (s : State) (t a : Nat) (b : Bytes) (unit : Nat) : Nat → PadRes Unit
  | 0 => .ok () s
  | k + 1 =>
    let s := State.freeSlot t (a / 64) unit tries s
    if b.length ≤ 64 then s.padPut t a b unit 0
    else match s.padPut t a (b.take 64) unit 0 with
      | .ok _ s => s.freeStore t (a + 64) (b.drop 64) unit k
      | r => r

/-- The clock brought to wall time `w`, if it is not there yet. -/
def State.toWt (s : State) (w : Nat) : State :=
  if w ≤ s.wt then s else s.advance (s.ticksToWt w)

/-- The clock brought to a wall time in whole ns. -/
def State.toNs (s : State) (n : Nat) : State := s.toWt (nsWt n)

end Sys2Proof.Machine
end

