-- ==== Sys2Proof/Machine/Flags.lean ====
section
/-! DEFINITION. The comparators: condition codes of CMP and CMPI (Table 4-10) and the comparator bits cmp0 to cmp3. -/
namespace Sys2Proof.Machine

/-- A condition code on two operands, Table 4-10; codes 6 and 7 are undefined. -/
def condOf (cc : Nat) (a b : W64) : Option Bool :=
  match cc with
  | 0 => some (decide (a = b))
  | 1 => some (decide (a ≠ b))
  | 2 => some (a.slt b)
  | 3 => some (!a.slt b)
  | 4 => some (a.ult b)
  | 5 => some (!a.ult b)
  | _ => none

/-- A comparator of a thread. -/
def Thread.cmpBit (x : Thread) (k : Nat) : Bool := x.cmp.getLsbD k

/-- A comparator written. -/
def Thread.setCmp (x : Thread) (k : Nat) (v : Bool) : Thread :=
  { x with cmp := if v then x.cmp ||| (1#4 <<< k) else x.cmp &&& ~~~(1#4 <<< k) }

end Sys2Proof.Machine
end

