-- ==== Sys2Proof/Machine/Operands.lean ====
section
/-! DEFINITION. The operand fields of a core instruction word (R99, Table 4-6) and the operand values they name. A command
carries bits [25:0] of the word; its opcode is the command's own. -/
namespace Sys2Proof.Machine

/-- Bits [25:21]: RD. -/
def fRD (w : BitVec 26) : Nat := bits w.toNat 25 21
/-- Bits [20:16]: RS1. -/
def fRS1 (w : BitVec 26) : Nat := bits w.toNat 20 16
/-- Bits [15:11]: RS2. -/
def fRS2 (w : BitVec 26) : Nat := bits w.toNat 15 11
/-- Bits [10:0]: FN. -/
def fFN (w : BitVec 26) : Nat := bits w.toNat 10 0
/-- Bits [15:0]: IMM. -/
def fIMM (w : BitVec 26) : BitVec 16 := BitVec.ofNat 16 w.toNat
/-- IMM sign-extended to 64 bits. -/
def immS (w : BitVec 26) : W64 := (fIMM w).signExtend 64
/-- IMM zero-extended to 64 bits. -/
def immZ (w : BitVec 26) : W64 := (fIMM w).zeroExtend 64
/-- The address s[rs1] + sext(IMM, 64) of format I (R100). -/
def fADDR (x : Thread) (w : BitVec 26) : Nat := (x.sreg (fRS1 w) + immS w).toNat
/-- The 32-bit operand of GADD, GSET and SETLC: s[rs1][31:0] if S, else zext(IMM, 32). -/
def opV (x : Thread) (s : Bool) (w : BitVec 26) : W32 :=
  if s then (x.sreg (fRS1 w)).truncate 32 else (fIMM w).zeroExtend 32

end Sys2Proof.Machine
end

