-- ==== Sys2Proof/Machine/CoreRun.lean ====
section
/-! DEFINITION. What every core instruction shares: issue, the next word under the hardware loops, the faults of an instruction, resumption
from a gun (R78, R83, R84, R94, R98, R99). -/
namespace Sys2Proof.Machine

/-- The state in which a thread's next instruction issues: the core's slot of this fc or of the next (R78), a thread about to start (R79) in the
next, the engines' work of that fc done. -/
def State.atIssue (s : State) (t th : Nat) : State :=
  if (sget none (s.tile t).starts th).isSome then (s.nextFc t).work t else s.atSlot t 0

/-- What the core of a tile does by itself with its present fc. -/
def State.coreNow (s : State) (t : Nat) : State := if s.clocked t then s.coreFirst t else s

/-- An instruction of a thread in RUN: it takes the core's issue slot (R78) and then has its effect. A thread that is not in RUN,
or whose clock is stopped, issues nothing. Which of the threads in RUN issues in a fc is the sender's: whether a thread is ready depends on latencies
that the model leaves out (log 69). -/
def State.issue (s : State) (t th : Nat) (k : State → Thread → State) : State :=
  s.onClock t fun s =>
    let m := s.atIssue t th
    if ((m.tile t).th th).st = .run then
      let m := m.takeSlot t 0
      let m := if th = 0 then m else m.modTile t fun x => { x with lastGather := th }
      k m ((m.tile t).th th)
    else s

/-- The loop levels at the word just issued, R83, innermost first: those left after it, where a loop-back goes, the levels that exited. -/
def loopEnd (word : Nat) : List LoopRec → List LoopRec × Option Nat × List Nat
  | [] => ([], none, [])
  | l :: ls =>
    if l.last = word then
      if l.idx + 1 < l.act then ({ l with idx := l.idx + 1 } :: ls, some l.first, [])
      else let r := loopEnd word ls; (r.1, r.2.1, l.level :: r.2.2)
    else let r := loopEnd word ls; (l :: r.1, r.2.1, r.2.2)

/-- A thread after an instruction that does not transfer control, R83, and the loop levels that exited by their count. -/
def Thread.next (x : Thread) : Thread × List Nat :=
  let r := loopEnd x.pc.toNat x.loops
  ({ x with loops := r.1, pc := match r.2.1 with | some f => BitVec.ofNat 15 f | none => x.pc + 1 }, r.2.2)

/-- The instruction is done: the thread as given, at its next word. -/
def State.done (s : State) (t th : Nat) (x : Thread) : State :=
  let r := x.next
  s.modTile t fun y => (y.setTh th r.1).flipExit th (s.fc t) r.2

/-- The levels left by a transfer of control to `tgt`, R84: a level whose body does not hold it goes with every level entered later. -/
def leave (tgt : Nat) (ls : List LoopRec) : List LoopRec :=
  (ls.reverse.takeWhile fun l => decide (l.first ≤ tgt) && decide (tgt ≤ l.last)).reverse

/-- A taken branch or jump, R84. -/
def State.jump (s : State) (t th : Nat) (x : Thread) (tgt : BitVec 15) : State :=
  let ls := leave tgt.toNat x.loops
  s.modTile t fun y => (y.setTh th { x with loops := ls, pc := tgt }).flipLeave th ls

/-- BOUNDS of a thread on a pad line or ring: recorded in PAD_ERR (R56) and faulted with code 0x02 (R98). LINE is the line's number modulo
65,536 (DESIGN CHOICE, log 61). -/
def State.coreBounds (s : State) (t th line : Nat) : State :=
  (s.modTile t fun x => x.padEvent F.PAD_ERR_BOUNDS (line % 65536) (thUnit th) th).coreFault t th 2

/-- An instruction whose RSVD fields or operands are undefined raises ILLEGAL_INSN (R99). -/
def State.legal (s : State) (t th : Nat) (ok : Bool) (k : State) : State := if ok then k else s.coreFault t th 1

/-- A thread resumed at its fire instant, R94: the verdict in rd; a restored thread goes on as it stands. Its GAWAIT moved it to the next word
when it issued (R79). -/
def Tile.gunResume (t : Tile) (th : Nat) (v : BitVec 16) : Tile :=
  match (t.th th).st with
  | .gun _ rd _ again =>
    let x := { t.th th with st := .run }
    t.setTh th (if again then x else x.setS rd (v.zeroExtend 64))
  | _ => t

/-- The pace thread resumed at the fire instant of channel `ch`, R94 R163 R164: TAKEN is set, a flip armed with M = 0 takes effect
(R96). -/
def Tile.paceResume (t : Tile) (ch : Nat) (f : Fire) : Tile :=
  let t := { t.gunResume 0 f.verdict with fires := sput none t.fires ch (some { f with taken := true }) }
  match t.flip with
  | some g => if g.level.isNone then t.applyFlip else t
  | none => t

/-- The checkpoint slot of a tile that holds the segment of a channel's fire instant (R167). -/
def Tile.slotOf (t : Tile) (ch n : Nat) : Option Nat :=
  [0, 1].find? fun k => match sget none t.ckpt k with | some c => decide (c.ch = ch) && decide (c.n = n) | none => false

/-- GUN_MISSED of the pace thread at instant `n` of channel `ch`, R160 R164: both CORE_FLT (code 0x07) and SEG_FLT (code 0x03) record it; it is a
fault of the segment that began at that instant. -/
def State.gunMissed (s : State) (t ch n : Nat) : State :=
  let fc := s.fc t
  let seg := ((s.tile t).slotOf ch n).map fun k => (ch, k)
  (s.modTile t fun x => x.segRecord fc 3 0 F.SEG_FLT_MISS).coreFaultOf t 0 7 (seg.orElse fun _ => (s.tile t).segment)

end Sys2Proof.Machine
end

