-- ==== Sys2Proof/Machine/CoreGauge.lean ====
section
/-! DEFINITION. Gauges and guns in the core, and the tile's side of fire messages (R86 to R94, R164, R165). -/
namespace Sys2Proof.Machine

/-- GADD and GSET: S in bit 21, gauge in bits [25:22]; with S = 0, RS1 must be 0. -/
def gaugeOp (t th : Nat) (w : BitVec 26) (f : Nat → W32 → GChange) (s : State) : State :=
  s.issue t th fun s x =>
    let sb := bit w.toNat 21
    s.legal t th (sb || decide (fRS1 w = 0))
      ((s.modTile t fun y => y.gchange (f (bits w.toNat 25 22) (opV x sb w))).done t th x)

/-- GADD (R86, R87). -/
def execGadd (t : TileIx) (th : ThreadIx) (w : BitVec 26) (s : State) : Host.Outcome State Fault Refusal :=
  .next (gaugeOp t th w (fun g v => .add g v.toNat false) s)

/-- GSET (R86): VALUE := v and ERR := 0. -/
def execGset (t : TileIx) (th : ThreadIx) (w : BitVec 26) (s : State) : Host.Outcome State Fault Refusal :=
  .next (gaugeOp t th w (fun g v => .set g v) s)

/-- GWAIT (R88): goes on where the condition holds, else the thread enters WAIT. -/
def execGwait (t : TileIx) (th : ThreadIx) (w : BitVec 26) (s : State) : Host.Outcome State Fault Refusal :=
  .next (s.issue t th fun s x =>
    let g := bits w.toNat 15 12
    let thr := (((x.sreg (fRS1 w)).truncate 32 : W32) + BitVec.ofNat 32 (bits w.toNat 11 0)).toNat
    let y := s.tile t
    if y.gaugeMet g thr then s.done t th (x.setS (fRD w) (y.gaugeWord g))
    else s.done t th { x with st := .wait (fRD w) g thr s.wt none x.pc })

/-- The state in which a gauge change of this fc has become visible, if a wait depends on one. -/
def State.settle (s : State) (t : Nat) : State := if (s.tile t).gpend.isEmpty then s else s.nextFc t

/-- GWAIT_WAKE (R88): a waiting thread goes on three fc after its gauge first showed the condition. -/
def execGwaitWake (t : TileIx) (th : ThreadIx) (s : State) : Host.Outcome State Fault Refusal :=
  .next (s.onClock t fun s => match ((s.tile t).th th).st with
    | .wait _ _ _ _ _ _ =>
      let s := s.settle t
      match ((s.tile t).th th).st with
      | .wait _ _ _ _ (some (f, _)) _ => (s.tileToFc t (f + 3)).coreNow t
      | _ => s
    | _ => s)

/-- GAUGE_TIMEOUT (R89): a thread still in WAIT GWDOG.LIMIT µs after its GWAIT faults with code 0x06 at that instruction; 0 disables the bound. A wait
whose condition has been shown no longer times out (DESIGN CHOICE, log 71: R89 does not say whether one that is met but not yet resumed
does). -/
def execGaugeTimeout (t : TileIx) (th : ThreadIx) (s : State) : Host.Outcome State Fault Refusal :=
  .next (s.onClock t fun s => match ((s.tile t).th th).st with
    | .wait _ _ _ since none _ =>
      let lim := (s.tile t).fld .GWDOG [] F.GWDOG_LIMIT
      if lim = 0 then s
      else
        let s := s.toWt (since + lim * 256000)
        match ((s.tile t).th th).st with
        | .wait _ _ _ _ none pc => (s.modTile t fun y => y.setTh th { y.th th with pc := pc }).coreFault t th 6
        | _ => s
    | _ => s)

/-- GRD: ERR and VALUE of a gauge into rd; [20:16] and [11:0] are RSVD. -/
def execGrd (t : TileIx) (th : ThreadIx) (w : BitVec 26) (s : State) : Host.Outcome State Fault Refusal :=
  .next (s.issue t th fun s x =>
    s.legal t th (decide (fRS1 w = 0) && decide (bits w.toNat 11 0 = 0))
      (s.done t th (x.setS (fRD w) ((s.tile t).gaugeWord (bits w.toNat 15 12)))))

/-- GARM (R93): the arm record of a channel, replacing one there; [4:0] is RSVD. -/
def execGarm (t : TileIx) (th : ThreadIx) (w : BitVec 26) (s : State) : Host.Outcome State Fault Refusal :=
  .next (s.issue t th fun s x =>
    let a : Arm :=
      { gauge := bits w.toNat 19 16, thr := (x.sreg (bits w.toNat 15 11)).toNat % 2 ^ 32,
        offer := if bit w.toNat 10 then some ((x.sreg (bits w.toNat 9 5)).truncate 16) else none,
        spent := false, fc := s.fc t }
    s.legal t th (decide (bits w.toNat 4 0 = 0))
      ((s.modTile t fun y => { y with arms := sput none y.arms (bits w.toNat 25 20) (some a) }).done t th x))

/-- ARM_REPORT (R93): an arm record whose condition holds sends one ready report with its offer and ERR, and is spent. -/
def execArmReport (t : TileIx) (ch : ChanIx) (s : State) : Host.Outcome State Fault Refusal :=
  .next (s.onClock t fun s => match sget none (s.tile t).arms ch with
    | some a =>
      if a.spent then s
      else
        let s := if (s.tile t).gaugeMet a.gauge a.thr then s else s.settle t
        let y := s.tile t
        if y.gaugeMet a.gauge a.thr then
          let s := s.modTile t fun y => { y with arms := sput none y.arms ch (some { a with spent := true }) }
          { s with readies := s.readies ++ [⟨ch, t, a.offer, decide (y.fld .GAUGE [a.gauge] F.GAUGE_ERR = 1)⟩] }
        else s
    | none => s)

/-- GAWAIT (R94, R164): the thread enters GUN; a pace thread whose record holds an untaken N at or before now has missed its gun.
[14:0] is RSVD. -/
def execGawait (t : TileIx) (th : ThreadIx) (w : BitVec 26) (s : State) : Host.Outcome State Fault Refusal :=
  .next (s.issue t th fun s x =>
    let ch := bits w.toNat 20 15
    let wait := s.done t th { x with st := .gun ch (fRD w) (s.fc t) false }
    s.legal t th (decide (bits w.toNat 14 0 = 0))
      (match sget none (s.tile t).fires ch with
        | some f => if decide (th.val = 0) && !f.taken && decide (f.n ≤ s.fc t) then s.gunMissed t ch f.n else wait
        | none => wait))

/-- GUN_RESUME (R94, R164): a thread in GUN whose channel's record names an instant after its GAWAIT goes on in that fc; the pace
thread takes the record. -/
def execGunResume (t : TileIx) (th : ThreadIx) (s : State) : Host.Outcome State Fault Refusal :=
  .next (s.onClock t fun s => match ((s.tile t).th th).st with
    | .gun ch _ since _ =>
      match sget none (s.tile t).fires ch with
      | some f =>
        if since < f.n && s.clockOn t then
          if th.val = 0 then
            if f.taken then s
            else let s := s.tileToFc t f.n; s.modTile t fun y => y.paceResume ch f
          else let s := s.tileToFc t f.n; s.modTile t fun y => y.gunResume th f.verdict
        else s
      | none => s
    | _ => s)

/-- FIRE_MESSAGE (R164, R165): the fire record is written with TAKEN = 0; a message at N − 1 or later is not recorded and raises
GUN_LATE, a fault of the segment that N starts. -/
def execFireMessage (t : TileIx) (f : FireMsg) (s : State) : Host.Outcome State Fault Refusal :=
  .next (s.onClock t fun s => let s := { s with fires := s.fires.erase (t.val, f) }
    if s.fc t + 1 < f.n then
      s.modTile t fun y => { y with fires := sput none y.fires f.ch (some ⟨f.n, f.verdict, false⟩) }
    else
      let fc := s.fc t
      let s := s.modTile t fun x => x.segRecord fc 4 0 F.SEG_FLT_LATE
      let slot := match (s.tile t).segment with
        | some (_, k) => if fc < f.n then 1 - k else k
        | none => 0
      s.segFaultOf t (s.mkReport t 0x44 (culTile t) culNone (natLe 8 (fc % 65536 * 2 ^ 48 + 4 * 2 ^ 32))) (some (f.ch, slot)))

end Sys2Proof.Machine
end

