-- ==== Sys2Proof/Machine/CoreMem.lean ====
section
/-! DEFINITION. Loads, stores, ring instructions, engine pushes and remote descriptors (R90 to R92, R100, R101). -/
namespace Sys2Proof.Machine

/-- The address checks of a load or store of `n` bytes, R100: inside the pad, aligned, in the window. -/
def State.addrOk (s : State) (t th a n : Nat) : Bool :=
  decide (a < 0x400000) && decide (a % n = 0) && (s.tile t).inWindow th (a / 64)

/-- A load of `n` bytes into rd, zero-extended (Table 4-11), in the fc in which it finds its slot (R28, R29). -/
def load (n t th : Nat) (w : BitVec 26) (s : State) : State :=
  s.issue t th fun s x =>
    let a := fADDR x w
    if s.addrOk t th a n then
      match (s.threadSlot t th (a / 64)).padGet t a n (thUnit th) th with
      | .ok b s => s.done t th (x.setS (fRD w) (BitVec.ofNat 64 (leNat b)))
      | .crc s => s.coreFault t th 8
      | .live s => s.coreFault t th 3
    else s.coreBounds t th (a / 64)

/-- A store of the low `n` bytes of s[RD field] (Table 4-11). -/
def store (n t th : Nat) (w : BitVec 26) (s : State) : State :=
  s.issue t th fun s x =>
    let a := fADDR x w
    if s.addrOk t th a n then
      match (s.threadSlot t th (a / 64)).padPut t a (natLe n (x.sreg (fRD w)).toNat) (thUnit th) th with
      | .ok _ s => s.done t th x
      | .crc s => s.coreFault t th 8
      | .live s => s.coreFault t th 3
    else s.coreBounds t th (a / 64)

/-- LD. -/
def execLd (t : TileIx) (th : ThreadIx) (w : BitVec 26) (s : State) : Host.Outcome State Fault Refusal := .next (load 8 t th w s)
/-- LW. -/
def execLw (t : TileIx) (th : ThreadIx) (w : BitVec 26) (s : State) : Host.Outcome State Fault Refusal := .next (load 4 t th w s)
/-- LB. -/
def execLb (t : TileIx) (th : ThreadIx) (w : BitVec 26) (s : State) : Host.Outcome State Fault Refusal := .next (load 1 t th w s)
/-- ST. -/
def execSt (t : TileIx) (th : ThreadIx) (w : BitVec 26) (s : State) : Host.Outcome State Fault Refusal := .next (store 8 t th w s)
/-- SW. -/
def execSw (t : TileIx) (th : ThreadIx) (w : BitVec 26) (s : State) : Host.Outcome State Fault Refusal := .next (store 4 t th w s)
/-- SB. -/
def execSb (t : TileIx) (th : ThreadIx) (w : BitVec 26) (s : State) : Host.Outcome State Fault Refusal := .next (store 1 t th w s)

/-- The checks that RPOP and RPUSH share, in their order: the ring enabled, the thread its unit, the entry in the window. -/
def State.ringOk (s : State) (t th n unit i : Nat) : Bool :=
  let x := s.tile t
  decide (x.fld .RING_CFG [n] F.RING_CFG_EN = 1) && decide (unit = thUnit th) &&
    ((x.entryLines n i).all fun l => x.inWindow th l)

/-- RPOP (R43, R47): HEAD advances by one entry; an empty ring underruns. -/
def execRpop (t : TileIx) (th : ThreadIx) (w : BitVec 26) (s : State) : Host.Outcome State Fault Refusal :=
  .next (s.issue t th fun s x =>
    let n := fRS1 w
    let y := s.tile t
    s.legal t th (decide (fRD w = 0) && decide (fIMM w = 0))
      (if s.ringOk t th n (y.fld .RING_CFG [n] F.RING_CFG_CONS) (y.head n) then
        if y.avail n = 0 then (s.modTile t fun y => y.setFld .RING_STAT [n] F.RING_STAT_UND 1).coreFault t th 5
        else (s.modTile t fun y => y.advHead n 1).done t th x
      else s.coreBounds t th (y.entryAddr n (y.head n) / 64)))

/-- RPUSH (R43, R46): TAIL advances by one entry; a full ring overruns, which faults unless EDGE is 1. -/
def execRpush (t : TileIx) (th : ThreadIx) (w : BitVec 26) (s : State) : Host.Outcome State Fault Refusal :=
  .next (s.issue t th fun s x =>
    let n := fRS1 w
    let y := s.tile t
    s.legal t th (decide (fRD w = 0) && decide (fIMM w = 0))
      (if s.ringOk t th n (y.fld .RING_CFG [n] F.RING_CFG_PROD) (y.tail n) then
        if y.ringFull n then
          if y.fld .RING_CFG [n] F.RING_CFG_EDGE = 1 then (s.modTile t fun y => y.ringOver n).done t th x
          else (s.modTile t fun y => y.setFld .RING_STAT [n] F.RING_STAT_OVR 1).coreFault t th 4
        else (s.modTile t fun y => y.advTail n 1).done t th x
      else s.coreBounds t th (y.entryAddr n (y.tail n) / 64)))

/-- RPTR: head address, tail address, occupancy (an advance of this fc shows in the next, R43) or fill cursor by IMM[1:0]; IMM[15:2] is RSVD. -/
def execRptr (t : TileIx) (th : ThreadIx) (w : BitVec 26) (s : State) : Host.Outcome State Fault Refusal :=
  .next (s.issue t th fun s x =>
    let n := fRS1 w
    let y := s.tile t
    let v := match bits w.toNat 1 0 with
      | 0 => y.entryAddr n (y.headWas n)
      | 1 => y.entryAddr n (y.tailWas n)
      | 2 => y.occWas n
      | _ => y.fld .RING_STAT [n] F.RING_STAT_FILL
    s.legal t th (decide (bits w.toNat 15 2 = 0)) (s.done t th (x.setS (fRD w) (BitVec.ofNat 64 v))))

/-- A push or a send, R91 R92: into a queue with room; a full queue puts the thread into STALL, which for the pace thread is recorded
and marks the segment untimed. The loops are evaluated with the issue either way (R83). -/
def State.pushOrStall (s : State) (t th q : Nat) (x : Thread) (c : BitVec 128) : State :=
  if (s.tile t).qFull q then
    let s1 := s.done t th { x with st := .stall q c (s.fc t) }
    if th = 0 then (s1.modTile t fun y => y.setFld .CORE_FLT [] F.CORE_FLT_PSTALL 1).markUntimed t else s1
  else (s.modTile t fun y => y.qPush q ⟨c, th, s.fc t⟩).done t th x

/-- PUSH: bits [25:24] name the queue, 3 is undefined; [23:21] and [10:0] are RSVD. -/
def execPush (t : TileIx) (th : ThreadIx) (w : BitVec 26) (s : State) : Host.Outcome State Fault Refusal :=
  .next (s.issue t th fun s x =>
    let q := bits w.toNat 25 24
    s.legal t th (decide (q < 3) && decide (bits w.toNat 23 21 = 0) && decide (fFN w = 0))
      (s.pushOrStall t th q x (x.sreg (fRS2 w) ++ x.sreg (fRS1 w))))

/-- The checks of R101 on a remote descriptor (Table 4-12). -/
def descOk (w0 w1 : W64) : Bool :=
  let a := w0.toNat; let b := w1.toNat
  let dest := bits a 43 32
  decide (bits a 58 44 = 0) &&
    match bits a 63 60 with
    | 1 => decide (dest < 1152) && decide (bits a 27 0 = 0) && decide (bits b 63 32 = 0)
    | 3 => decide (bits a 59 59 = 0) && decide (dest ≤ 16)
    | 4 => decide (bits a 59 59 = 0) && decide (dest = 0)
    | _ => false

/-- SEND: a checked remote descriptor into the send queue (R92, R101); [25:21] and [10:0] are RSVD. -/
def execSend (t : TileIx) (th : ThreadIx) (w : BitVec 26) (s : State) : Host.Outcome State Fault Refusal :=
  .next (s.issue t th fun s x =>
    let w0 := x.sreg (fRS1 w)
    let w1 := x.sreg (fRS2 w)
    s.legal t th (decide (fRD w = 0) && decide (fFN w = 0) && descOk w0 w1) (s.pushOrStall t th 3 x (w1 ++ w0)))

/-- The next fc in which anything happens in a tile whose thread is stalled; none where it is stalled no more. -/
def State.stallNext (t th : Nat) (s : State) : Option Nat :=
  match ((s.tile t).th th).st with
  | .stall _ _ _ => (s.dues t).foldl (fun m f => some (match m with
      | some k => min k (max f (s.fc t + 1))
      | none => max f (s.fc t + 1))) none
  | _ => none

/-- STALL_RESUME (R91): a stalled thread pushes in the first fc with room, and goes on. -/
def execStallResume (t : TileIx) (th : ThreadIx) (s : State) : Host.Outcome State Fault Refusal :=
  .next (s.onClock t fun s => match ((s.tile t).th th).st with
    | .stall _ _ _ => (State.seek t (fun s => State.stallNext t th (s.work t)) 65536 s).work t
    | _ => s)

/-- The polder and tenant that a tile's packets carry (R207). -/
def State.sender (s : State) (t : Nat) : Option Nat × Nat :=
  match s.tilePolder t with
  | some d => (some d, s.tenant d)
  | none => (none, 0)

/-- Whether a hub's queue has room: 64 requests of a link hub (R262), 16 receipt requests (R324) and 1,024 others of the host hub with
its waiting UIO requests (R355). -/
def State.hubRoom (s : State) (h hop : Nat) : Bool :=
  let q := (sget Hub.init s.hubs h).reqs
  let isR := fun r : HubReq => decide (bits r.w0.toNat 27 24 = 12)
  if h < 16 then decide (q.length < 64)
  else if hop = 12 then decide ((q.filter isR).length < 16)
  else decide ((q.filter fun r => !isR r).length + (s.uio.filter fun p => p.at_.isNone).length < 1024)

/-- SEND_DRAIN (R92, R207): the head of the send queue goes onto the service plane: a gauge add travels to its tile, a hub request to its
hub's queue if that has room (R262), a management message to the management core (R384). -/
def execSendDrain (t : TileIx) (s : State) : Host.Outcome State Fault Refusal :=
  .next (s.onClock t fun s => match (s.tile t).sendq with
    | [] => s
    | c :: cs =>
      let w0 := c.cmd.truncate 64; let w1 : W64 := (c.cmd >>> 64).truncate 64
      let a := w0.toNat
      let p := s.sender t
      let r : HubReq := ⟨t, p.1, p.2, w0, w1⟩
      let pop : State := s.modTile t fun x => { x with sendq := cs, used := 6 :: x.used }
      match bits a 63 60 with
      | 1 =>
        let g : GaugeAdd := ⟨t.val, BitVec.ofNat 16 p.2, Fin.ofNat 1152 (bits a 43 32), Fin.ofNat 16 (bits a 31 28), w1.truncate 32,
          bit a 59⟩
        pop.route ⟨bits a 43 32, t, p.2, 1, 0⟩ fun s => { s with gadds := s.gadds ++ [g] }
      | 3 =>
        let h := sget Hub.init s.hubs (bits a 43 32)
        if s.hubRoom (bits a 43 32) (bits a 27 24) then
          pop.route ⟨1152 + bits a 43 32, t, p.2, 5, 0⟩ fun s =>
            { s with hubs := sput Hub.init s.hubs (bits a 43 32) { h with reqs := h.reqs ++ [r] } }
        else s
      | _ => if s.mgmt.length < 256 then pop.route ⟨1171, t, p.2, 5, 0⟩ fun s => { s with mgmt := s.mgmt ++ [r] } else s)

/-- REMOTE_GAUGE_ADD (R92, R336): applied at the destination gauge in its fc of arrival, or dropped at a dike. -/
def execRemoteGaugeAdd (g : GaugeAdd) (s : State) : Host.Outcome State Fault Refusal :=
  .next (let s := { s with gadds := s.gadds.erase g }
    if s.dikeTile g.src g.tenant.toNat g.dest then s.modTile g.dest fun x => x.gadd g.gauge g.amount.toNat g.e
    else s.svcDrop)

end Sys2Proof.Machine
end

