-- ==== Sys2Proof/Machine/CoreCtl.lean ====
section
/-! DEFINITION. Thread control, pauses, the code bank flip, loops and instruction fetch (R79, R81 to R83, R95 to R97, R102). -/
namespace Sys2Proof.Machine

/-- TSPAWN: a HALTED thread T starts at s[rs1][14:0] and cmp[K] := 1, else cmp[K] := 0; T = 0 and RSVD bits are illegal. -/
def execTspawn (t : TileIx) (th : ThreadIx) (w : BitVec 26) (s : State) : Host.Outcome State Fault Refusal :=
  .next (s.issue t th fun s x =>
    let n := bits w.toNat 25 22
    let k := bits w.toNat 15 14
    s.legal t th (decide (n ≠ 0) && decide (bits w.toNat 21 21 = 0) && decide (bits w.toNat 13 0 = 0))
      (if ((s.tile t).th n).st = .halted then
        (s.modTile t fun y => y.start n ((x.sreg (fRS1 w)).truncate 15)).done t th (x.setCmp k true)
      else s.done t th (x.setCmp k false)))

/-- THALT: the thread enters HALTED, its levels deactivate; the pace thread's armed flip is disarmed. Bits [25:0] are RSVD. -/
def execThalt (t : TileIx) (th : ThreadIx) (w : BitVec 26) (s : State) : Host.Outcome State Fault Refusal :=
  .next (s.issue t th fun s x =>
    s.legal t th (decide (w = 0)) (s.modTile t fun y => (y.setTh th { x with pc := x.pc + 1 }).halt th))

/-- PAUSE n: the next instruction issues in fc t + n; n = 0 is illegal, [25:16] is RSVD. -/
def execPause (t : TileIx) (th : ThreadIx) (w : BitVec 26) (s : State) : Host.Outcome State Fault Refusal :=
  .next (s.issue t th fun s x =>
    s.legal t th (decide (bits w.toNat 25 16 = 0) && decide (fIMM w ≠ 0))
      (s.done t th { x with st := .pause (s.fc t + (fIMM w).toNat) }))

/-- PAUSE_END: a paused thread goes on when its count ends. -/
def execPauseEnd (t : TileIx) (th : ThreadIx) (s : State) : Host.Outcome State Fault Refusal :=
  .next (s.onClock t fun s => match ((s.tile t).th th).st with
    | .pause till => (s.tileToFc t till).coreNow t
    | _ => s)

/-- FLIP (R95): only the pace thread, one flip at a time, level L active where M = 1; the target's line is read from the inactive
bank as a fetch of the pace thread that asks for its slot in the next fc. Bits [22:15] are RSVD. -/
def execFlip (t : TileIx) (th : ThreadIx) (w : BitVec 26) (s : State) : Host.Outcome State Fault Refusal :=
  .next (s.issue t th fun s x =>
    let m := bit w.toNat 25
    let l := bits w.toNat 24 23
    let y := s.tile t
    let b := 1 - y.fld .CODE_CTL [] F.CODE_CTL_ACTIVE
    let tgt := bits w.toNat 14 0
    s.legal t th (decide (th.val = 0) && decide (bits w.toNat 22 15 = 0) && y.flip.isNone &&
        (!m || x.loops.any fun r => r.level = l))
      (if y.bankLines b ≤ tgt / 16 then s.coreBounds t th (y.bankLine b (tgt / 16))
      else (s.modTile t fun y =>
        { y with flip := some ⟨if m then some l else none, BitVec.ofNat 15 tgt, none, s.fc t + 1, none⟩ }).done t th x))

/-- FLIP_TAKE_EFFECT (R95, R96): with M = 1 in the fc after its level exited by its count; with M = 0 at the fire instant at which
the pace thread resumes. -/
def execFlipTakeEffect (t : TileIx) (s : State) : Host.Outcome State Fault Refusal :=
  .next (s.onClock t fun s => match (s.tile t).flip with
    | some f =>
      match f.due with
      | some e => (if e < s.fc t then s else s.tileToFc t (e + 1)).coreNow t
      | none =>
        if f.level.isNone then
          match ((s.tile t).th 0).st with
          | .gun ch _ since _ =>
            match sget none (s.tile t).fires ch with
            | some r =>
              if since < r.n && !r.taken && s.clockOn t then
                let s := s.tileToFc t r.n; s.modTile t fun y => y.paceResume ch r
              else s
            | none => s
          | _ => s
        else s
    | none => s)

/-- SETLC: LC[N] := s[rs1][31:0] or the immediate; with S = 0, RS1 must be 0; [22:21] is RSVD. -/
def execSetlc (t : TileIx) (th : ThreadIx) (w : BitVec 26) (s : State) : Host.Outcome State Fault Refusal :=
  .next (s.issue t th fun s x =>
    let sb := bit w.toNat 23
    s.legal t th (decide (bits w.toNat 22 21 = 0) && (sb || decide (fRS1 w = 0)))
      (s.done t th { x with lc := sput 0 x.lc (bits w.toNat 25 24) (opV x sb w) }))

/-- Where a LOOP is illegal (R83): its level active, its body passing the end of an active body, or the LOOP itself at one's end. -/
def Thread.loopBad (x : Thread) (n len : Nat) : Bool :=
  x.loops.any fun l => decide (l.level = n) || decide (l.last < x.pc.toNat + len) || decide (l.last = x.pc.toNat)

/-- LOOP n, END (R82, R83): a count of 0 skips the body; otherwise the level becomes active with index 0. -/
def execLoop (t : TileIx) (th : ThreadIx) (w : BitVec 26) (s : State) : Host.Outcome State Fault Refusal :=
  .next (s.issue t th fun s x =>
    let n := bits w.toNat 25 24
    let len := bits w.toNat 14 0
    let act := (sget 0 x.lc n).toNat
    s.legal t th (decide (bits w.toNat 23 15 = 0) && decide (len ≠ 0) && !x.loopBad n len)
      (s.modTile t fun y => y.setTh th
        (if act = 0 then { x with pc := x.pc + BitVec.ofNat 15 (len + 1) }
        else { x with pc := x.pc + 1, loops := ⟨n, act, 0, x.pc.toNat + 1, x.pc.toNat + len, x.fetch.filter fun e => holdsLine (x.pc.toNat + 1) e.1⟩ :: x.loops })))

/-- INSTRUCTION_FETCH (R52, R81): line `line` of the active bank enters the fetch buffer of two lines and the active levels that hold it: of the
pace thread in a slot of unit 0x4, of a gather thread in a free slot; beyond SIZE it raises BOUNDS, with a failed line check PAD_CRC. -/
def execInstructionFetch (t : TileIx) (th : ThreadIx) (line : Nat) (s : State) : Host.Outcome State Fault Refusal :=
  .next (s.onClock t fun s =>
    let s := s.work t
    let y := s.tile t
    let b := y.fld .CODE_CTL [] F.CODE_CTL_ACTIVE
    if ((y.th th).st = .halted) || ((y.th th).st = .fault) then s
    else if y.bankLines b ≤ line then s.coreBounds t th (y.bankLine b line)
    else if th.val = 0 then s.paceFetch t line
    else match (State.freeGo t (y.bankLine b line) 5 tries s).padGet t (64 * y.bankLine b line) 64 5 th with
      | .ok d s => s.modTile t fun y => y.fetched th line d
      | .crc s => s.coreFault t th 8
      | .live s => s)

end Sys2Proof.Machine
end

