-- ==== Sys2Proof/Machine/Access.lean ====
section
/-! DEFINITION. Who may access which register (R11, R350, R351, R336, R427), and what a refused access does. -/
namespace Sys2Proof.Machine

/-- The mailbox of the open session that a requester holds (R350). -/
def State.session (s : State) (req : BitVec 16) : Option Nat :=
  (List.range 16).find? fun m => decide (s.fld .SESS [m] F.SESS_STATE = 2) && decide (s.fld .SESS [m] F.SESS_REQID = req.toNat)

/-- Whether a requester holds the operator session. -/
def State.isOperator (s : State) (req : BitVec 16) : Bool :=
  match s.session req with
  | some m => decide (s.fld .SESS [m] F.SESS_KIND = 0)
  | none => false

/-- Whether a requester holds a tenant session whose tenant owns a tile's polder (Table 15-2). -/
def State.ownsTile (s : State) (req : BitVec 16) (t : Nat) : Bool :=
  match s.session req, s.tilePolder t with
  | some m, some d => decide (s.fld .SESS [m] F.SESS_KIND = 1) && decide (s.fld .SESS [m] F.SESS_TENANT = s.tenant d)
  | _, _ => false

/-- An answer to a host requester. -/
def State.answer (s : State) (req : BitVec 16) (status : Nat) (data : Bytes) : State :=
  { s with out := s.out ++ [.host req status data] }

/-- An unsupported request without a completion: counted (R350, R351). -/
def State.urCount (s : State) : State := s.incSat .HOST_STAT [] F.HOST_STAT_UR_CNT 1

/-- A status to the management core. -/
def State.toMgmt (s : State) (ok : Bool) (data : Bytes) : State := { s with out := s.out ++ [.mgmt ok data] }

/-- The answer of a tile to the management core, a single-flit response (R207). -/
def State.tileMgmt (s : State) (t : Nat) (ok : Bool) (data : Bytes) : State :=
  s.route ⟨1171, t, (s.sender t).2, 4, 0⟩ fun s => s.toMgmt ok data

/-- A write to a tile's window by its writer, where Table 15-2 and R336 let it through: the host by a tenant session of the tile's
tenant, a thread in its own tile (R103), the management core past the dike; JTAG and I3C write no tile register. On a frozen device
none is performed, and a host's counts in HOSTREF (R419). -/
def State.tileBy (s : State) (src : Writer) (t : Nat) (k : State → State) : State :=
  match src with
  | .host req =>
    if s.isFrozen then s.incSat .FRZ_STAT [] F.FRZ_STAT_HOSTREF 1
    else if s.ownsTile req t then (let s := s.routeFree 1168 t
      if s.dikeTile 1168 (s.sender t).2 t then k s else s.svcDrop) else s.urCount
  | .thread t' _ => if decide (t'.val = t) && !s.isFrozen then k s else s
  | .mgmt => if s.isFrozen then s else if s.dikeTile 1171 0 t then k (s.routeFree 1171 t) else (s.routeFree 1171 t).svcDrop
  | _ => s

/-- A write to a chip register by its writer: the host by the operator session, the management core; nobody else (Table 15-2). -/
def State.chipBy (s : State) (src : Writer) (k : State → State) : State :=
  match src with
  | .host req => if s.isOperator req then k s else s.urCount
  | .mgmt => k s
  | _ => s

/-- A service-port access or ring append refused (R33, R35); the router of a tile in QUARANTINE counts the packet as dropped as well (R336). -/
def State.svcRej (s : State) (t unit : Nat) : State :=
  let s := if s.dikeTile 1171 0 t then s else s.svcDrop
  (s.modTile t fun x => (x.padEvent F.PAD_ERR_SVC_REJ 0 unit 0).incSat .PAD_CNT [] F.PAD_CNT_SVC_REJ_CNT 1).tileMgmt t false []

end Sys2Proof.Machine
end

