-- ==== Sys2Proof/Machine/Event.lean ====
section
/-! DEFINITION. The event rings of the mailboxes and the host events that Terern places in them (R356, R357, R360). -/
namespace Sys2Proof.Machine

/-- An event entry of 512 B: TYPE, VER, LEN, TAG, STATUS, body (R357). -/
def eventEntry (ty : Nat) (tag : Bytes) (status : Nat) (body : Bytes) : Bytes :=
  padTo ([BitVec.ofNat 8 ty, 1] ++ natLe 2 body.length ++ padTo tag 4 ++ natLe 2 status ++ List.replicate 6 0 ++ body) 512

/-- Entries in an event ring. -/
def State.evOcc (s : State) (m : Nat) : Nat :=
  let h := s.fld .MB_STAT [m] F.MB_STAT_EHEAD + 64 * s.fld .MB_STAT [m] F.MB_STAT_EHW
  let t := s.fld .MB_STAT [m] F.MB_STAT_ETAIL + 64 * s.fld .MB_STAT [m] F.MB_STAT_ETW
  (t + 128 - h) % 128

/-- An entry written at the tail of an event ring with room; MSI-X is signalled when the ring was empty (R360). -/
def State.evPut (s : State) (m : Nat) (e : Bytes) : State :=
  let t := s.fld .MB_STAT [m] F.MB_STAT_ETAIL + 64 * s.fld .MB_STAT [m] F.MB_STAT_ETW
  let n := (t + 1) % 128
  let s1 := s.setBytes (mboxAddr m (0x1000 + 512 * (t % 64))) (padTo e 512)
  let s2 := (s1.setFld .MB_STAT [m] F.MB_STAT_ETAIL (n % 64)).setFld .MB_STAT [m] F.MB_STAT_ETW (n / 64)
  if s.evOcc m = 0 then { s2 with out := s2.out ++ [.msix m] } else s2

/-- A mailbox. -/
def State.mbox (s : State) (m : Nat) : Mbox := sget Mbox.init s.mboxes m
/-- A mailbox changed. -/
def State.modMbox (s : State) (m : Nat) (f : Mbox → Mbox) : State := { s with mboxes := sput Mbox.init s.mboxes m (f (s.mbox m)) }

/-- Events waiting for room placed while there is room, at most `n`. -/
def State.evFlush (m : Nat) : Nat → State → State
  | 0, s => s
  | n + 1, s =>
    match (s.mbox m).wait with
    | [] => s
    | e :: es => if s.evOcc m < 64 then State.evFlush m n ((s.modMbox m fun b => { b with wait := es }).evPut m e) else s

/-- An entry for an event ring: behind those that wait for room (R360). -/
def State.post (s : State) (m : Nat) (e : Bytes) : State :=
  State.evFlush m 64 (s.modMbox m fun b => { b with wait := b.wait ++ [e] })

/-- Whether the open session of a mailbox receives what concerns a polder: the operator all of it, a tenant that of its polders (R360). -/
def State.entitled (s : State) (m : Nat) (polder : Option Nat) : Bool :=
  decide (s.fld .SESS [m] F.SESS_STATE = 2) &&
    (decide (s.fld .SESS [m] F.SESS_KIND = 0) ||
      match polder with
      | some d => decide (s.fld .SESS [m] F.SESS_TENANT = s.tenant d)
      | none => false)

/-- An entry for every session entitled to it. -/
def State.postAll (s : State) (polder : Option Nat) (e : Bytes) : State :=
  ((List.range 16).filter fun m => s.entitled m polder).foldl (fun s m => s.post m e) s

/-- A host event (Table 15-7). -/
def State.event (s : State) (code : Nat) (polder : Option Nat) (detail : Bytes) : State :=
  s.postAll polder (eventEntry 2 [] 0 (natLe 2 code ++ natLe 1 (polder.getD 0xFF) ++ natLe 9 s.wt ++ detail))

end Sys2Proof.Machine
end

