-- ==== Sys2Proof/Machine/Gun.lean ====
section
/-! DEFINITION. The gun controller (chapter 07, R199 to R203): channels, ready reports, fires, verdicts, aborts, re-runs. -/
namespace Sys2Proof.Machine

/-! ### Channels and groups -/

/-- A channel beyond its registers. -/
def State.chan (s : State) (c : Nat) : Chan := sget Chan.init s.chans c
/-- A channel changed. -/
def State.modChan (s : State) (c : Nat) (f : Chan → Chan) : State := { s with chans := sput Chan.init s.chans c (f (s.chan c)) }
/-- STATE of a channel: 0 DISABLED, 1 COLLECT, 2 ANNOUNCED, 3 ERROR, 4 ABORTED, 5 FAILED. -/
def State.chState (s : State) (c : Nat) : Nat := s.fld .GUN_STAT [c] F.GUN_STAT_STATE
/-- STATE of a channel written. -/
def State.setChState (s : State) (c v : Nat) : State := s.setFld .GUN_STAT [c] F.GUN_STAT_STATE v
/-- The region mask of a channel's group. -/
def State.chMask (s : State) (c : Nat) : Nat := s.fld .GUN_CHAN [c] F.GUN_CHAN_RMASK
/-- The domain of a channel: that of its polder (R159, R221). -/
def State.chDom (s : State) (c : Nat) : Nat := s.fld .GUN_CHAN [c] F.GUN_CHAN_POLDER
/-- The fc of a channel's domain. -/
def State.chFc (s : State) (c : Nat) : Nat := (s.dom (s.chDom c)).fc
/-- The tiles of a channel's group. -/
def State.chTiles (s : State) (c : Nat) : List Nat := tilesOfMask (s.chMask c)
/-- The enabled channels of a group. -/
def State.chansOf (s : State) (mask : Nat) : List Nat :=
  (List.range 64).filter fun c => decide (s.fld .GUN_CHAN [c] F.GUN_CHAN_EN = 1) && decide (s.chMask c = mask)
/-- The history of a group. -/
def State.group (s : State) (mask : Nat) : Group := (s.groups.find? fun g => g.mask = mask).getD ⟨mask, [], none⟩
/-- The history of a group replaced; one without history is not listed. -/
def State.setGroup (s : State) (g : Group) : State :=
  let r := s.groups.filter fun h => h.mask ≠ g.mask
  { s with groups := if g.segs = [] ∧ g.abort = none then r else g :: r }

/-- A fault report of the gun controller, R431. -/
def State.gunReport (s : State) (code tile c : Nat) : State :=
  s.sendReport (s.mkReport 1169 (0x80 + code) (culTile tile) culNone [BitVec.ofNat 8 c])

/-! ### Firing (R161 to R166) -/

/-- The least fc at or above `n` with residue `p` modulo 16. -/
def phaseUp (n p : Nat) : Nat := n + (p + 16 - n % 16) % 16

/-- The latest fire instant of any channel of a group, announced ones included. -/
def State.nPrev (s : State) (mask : Nat) : Option Nat :=
  let past := (s.group mask).segs.map Seg.n
  let due := (s.chansOf mask).filterMap fun c => (s.chan c).ann.map Announce.n
  let last := (s.chansOf mask).filterMap fun c => (s.chan c).fired.map Prod.fst
  (past ++ due ++ last).foldl (fun a n => some (match a with | some m => max m n | none => n)) none

/-- A fire announced with D = `d`: its instant, the messages to every member tile (R162). -/
def State.announce (s : State) (c d : Nat) (v : BitVec 16) (rerun : Bool) : State :=
  let lo := max (d + s.fld .GUN_CHAN [c] F.GUN_CHAN_LEAD) (match s.nPrev (s.chMask c) with | some p => p + 128 | none => 0)
  let n := phaseUp lo (s.fld .GUN_CHAN [c] F.GUN_CHAN_PHASE)
  let s := (s.setChState c 2).modChan c fun x => { x with ann := some ⟨n, v, rerun⟩ }
  { s with fires := s.fires ++ (s.chTiles c).map fun t => (t, ⟨Fin.ofNat 64 c, n, v⟩) }

/-- An offer put behind those of tiles of no higher index. -/
def offerInsert (e : Nat × BitVec 16) : List (Nat × BitVec 16) → List (Nat × BitVec 16)
  | [] => [e]
  | x :: xs => if e.1 < x.1 then e :: x :: xs else x :: offerInsert e xs
/-- The offers of the counted reports, ascending tile; a tile that reported more than once has each of its offers count (R161, R199). -/
def offersOf (l : List (Nat × Option (BitVec 16))) : List (Nat × BitVec 16) :=
  (l.filterMap fun e => e.2.map fun v => (e.1, v)).foldl (fun o e => offerInsert e o) []

/-- The verdict of counted reports by mode (Table 8-4); for AGREE the first tile in conflict (R200). The lead tile's offer is its first (DESIGN
CHOICE, log 72: R199 does not say which of two). -/
def verdictOf (mode lead : Nat) (vdef : BitVec 16) (l : List (Nat × Option (BitVec 16))) : Except Nat (BitVec 16) :=
  match offersOf l with
  | [] => .ok vdef
  | (t0, v0) :: os =>
    let all := (t0, v0) :: os
    match mode with
    | 1 => .ok (all.foldl (fun a e => a ||| e.2) 0)
    | 2 => .ok (all.foldl (fun a e => a &&& e.2) 0xFFFF)
    | 3 => .ok (os.foldl (fun a e => if a.ult e.2 then e.2 else a) v0)
    | 4 => .ok (os.foldl (fun a e => if e.2.ult a then e.2 else a) v0)
    | 5 => .ok (((all.find? fun e => e.1 = lead).map Prod.snd).getD vdef)
    | 6 => match os.find? fun e => e.2 ≠ v0 with
      | some e => .error e.1
      | none => .ok v0
    | _ => .ok vdef

/-- The count has reached EXPECT with D = `d`: the fire is announced, or offers in conflict put the channel into ERROR (R162, R200). -/
def State.decideFire (s : State) (c d : Nat) : State :=
  let w := s.reg .GUN_VCFG [c]
  match verdictOf (F.GUN_VCFG_MODE.get w) (F.GUN_VCFG_LEADT.get w) (BitVec.ofNat 16 (F.GUN_VCFG_VDEF.get w)) (s.chan c).got with
  | .ok v =>
    ((s.setFld .GUN_STAT [c] F.GUN_STAT_COUNT 0).modChan c fun x => { x with got := [] }).announce c d v false
  | .error t =>
    let w := if F.GUN_VCFG_VCONF.get w = 0 then F.GUN_VCFG_VCTILE.set w t else w
    (((s.setReg .GUN_VCFG [c] w).setFld .GUN_VCFG [c] F.GUN_VCFG_VCONF 1).setChState c 3).gunReport 3 t c

/-- COLLECT with the count at EXPECT fires with D = `d`. -/
def State.tryFire (s : State) (c d : Nat) : State :=
  if decide (s.chState c = 1) && decide (s.fld .GUN_CHAN [c] F.GUN_CHAN_EXPECT ≤ s.fld .GUN_STAT [c] F.GUN_STAT_COUNT) then
    s.decideFire c d
  else s

/-- A ready report counted, R161. -/
def State.countReport (s : State) (r : ReadyRep) : State :=
  let c := r.ch.val
  let s := (s.incWrap .GUN_STAT [c] F.GUN_STAT_COUNT 1).modChan c fun x => { x with got := x.got ++ [(r.tile.val, r.offer)] }
  if r.err then
    let s := (s.setFld .GUN_STAT [c] F.GUN_STAT_ERR 1).gunReport 1 r.tile c
    match s.chState c with
    | 1 => s.setChState c 3
    | 3 => s
    | _ => s.modChan c fun x => { x with errAt := true }
  else s.tryFire c (s.chFc c)

/-- READY_REPORT (R161): a stray report is discarded; a FAILED channel discards. -/
def execReadyReport (rep : ReadyRep) (s : State) : Host.Outcome State Fault Refusal :=
  .next (s.onDom (s.chDom rep.ch) fun s => let s := { s with readies := s.readies.erase rep }
    let c := rep.ch.val
    match s.chState c with
    | 0 => s.setFld .GUN_STAT [c] F.GUN_STAT_STRAY 1
    | 5 => if bit (s.chMask c) (regionOf rep.tile) then s else s.setFld .GUN_STAT [c] F.GUN_STAT_STRAY 1
    | _ =>
      if bit (s.chMask c) (regionOf rep.tile) then s.countReport rep else s.setFld .GUN_STAT [c] F.GUN_STAT_STRAY 1)

/-! ### Fire instants (R160, R163, R167) -/

/-- The rollback rings of a tile: enabled with PROD and CONS among the scheduled units (R167). -/
def Tile.rollback (t : Tile) : List Nat :=
  (List.range 32).filter fun n =>
    decide (t.fld .RING_CFG [n] F.RING_CFG_EN = 1) && decide (t.fld .RING_CFG [n] F.RING_CFG_PROD ≤ 4) &&
      decide (t.fld .RING_CFG [n] F.RING_CFG_CONS ≤ 4)

/-- The checkpoint slot that the next fire instant of a tile writes: the slots alternate (R167, R169). -/
def Tile.nextSlot (t : Tile) : Nat :=
  match t.segment with
  | some (_, k) => 1 - k
  | none => 0

/-- The engines of a tile released, but those whose own fault's abort instant is still to come (R430). -/
def Tile.release (t : Tile) : Tile :=
  let hold := fun (k : Nat) (b : Bool) => b && t.awaitA.contains k
  { t with
    mxe := { t.mxe with stopped := hold 0 t.mxe.stopped }
    vxe := { t.vxe with stopped := hold 1 t.vxe.stopped }
    xfe := { t.xfe with stopped := hold 2 t.xfe.stopped } }

/-- Fire instant `n` of channel `c` in a member tile (R160, R163, R164, R167, R169, R430): the pace thread that waits for it goes on, the
checkpoint is taken, the new segment becomes current, the engines are released. -/
def Tile.fireInstant (c n : Nat) (t : Tile) : Tile :=
  let t := match (t.th 0).st, sget none t.fires c with
    | .gun ch _ since _, some f =>
      if decide (ch = c) && decide (f.n = n) && !f.taken && decide (since < n) then t.paceResume c f else t
    | _, _ => t
  let k := t.nextSlot
  let ck : Ckpt := ⟨c, n, t.th 0, t.rollback.map fun r => (r, t.reg .RING_PTR [r])⟩
  let w := t.reg .SEG_STAT []
  let w := F.SEG_STAT_CH.set (F.SEG_STAT_VALID.set (F.SEG_STAT_SLOT.set (F.SEG_STAT_CKV.set (F.SEG_STAT_UNT.set w 0) 1) k) 1) c
  let w := F.SEG_STAT_SEG_CNT.set w (F.SEG_STAT_SEG_CNT.get w + 1)
  { t.setReg .SEG_STAT [] w with ckpt := sput none t.ckpt k (some ck), hopShut := false }.release

/-- The announced fire of a channel in its instant (R160 to R163), `k` being what else happens at it (settings that staged commit applies
at this gun, R23). The channel returns to COLLECT, or enters ERROR for a report with ERR; with its count already at EXPECT it takes N
as D. -/
def State.fireInstant (ch : ChanIx) (k : State → State) (s : State) : State :=
  s.onDom (s.chDom ch) fun s => let c := ch.val
    match (s.chan c).ann with
    | none => s
    | some a =>
      let s := k (s.toFc (s.chDom c) a.n)
      let mask := s.chMask c
      let g := s.group mask
      let s := s.modTiles (s.chTiles c) (Tile.fireInstant c a.n)
      let s := s.setGroup { g with segs := ⟨c, a.n, a.verdict⟩ :: g.segs.take 1 }
      let err := (s.chan c).errAt
      let s := s.modChan c fun x =>
        { x with ann := none, errAt := false, since := s.wt, fired := some (a.n, a.verdict), timed := false }
      let s := s.setReg .GUN_LAST [c]
        (F.GUN_LAST_VERDICT.set (F.GUN_LAST_N.set (s.reg .GUN_LAST [c]) (a.n % 2 ^ 48)) a.verdict.toNat)
      let s := if a.rerun then s else s.setFld .GUN_STAT [c] F.GUN_STAT_RETRY 0
      if err then s.setChState c 3 else (s.setChState c 1).tryFire c a.n

/-- The lowest tile of a channel's group whose report is outstanding. -/
def State.missing (s : State) (c : Nat) : Option Nat :=
  (s.chTiles c).foldl (fun a t =>
    if ((s.chan c).got.any fun e => e.1 = t) then a
    else some (match a with | some m => min m t | none => t)) none

/-- GUN_TIMEOUT (R166): a channel that has not fired within GUN_LIM sets TMO, records MISS and sends one report. -/
def execGunTimeout (ch : ChanIx) (s : State) : Host.Outcome State Fault Refusal :=
  .next (s.onDom (s.chDom ch) fun s => let c := ch.val
    let lim := s.fld .GUN_LIM [c] F.GUN_LIM_LIMIT
    if decide (lim = 0) || decide (s.chState c = 0) || (s.chan c).timed then s
    else
      let s := s.toWt ((s.chan c).since + lim * 256000)
      let m := (s.missing c).getD 0
      let s := (s.setFld .GUN_STAT [c] F.GUN_STAT_TMO 1).setFld .GUN_STAT [c] F.GUN_STAT_MISS m
      (s.modChan c fun x => { x with timed := true }).gunReport 2 m c)

/-! ### Aborts (R168 to R173) -/

/-- An abort request for the segment that channel `c` began, or is about to begin, at instant `n`, received now, R168: the first sets A and R0 and
sends the abort message; a later one joins, and the earliest segment named is restarted. -/
def State.abortAt (s : State) (c n : Nat) : State :=
  let mask := s.chMask c
  let g := s.group mask
  let next := (s.chan c).ann.bind fun a => if a.n = n then some (⟨c, n, a.verdict⟩ : Seg) else none
  match (g.segs.find? fun x => decide (x.ch = c) && decide (x.n = n)).orElse fun _ => next with
  | none => s
  | some seg =>
    let now := s.chFc c
    match g.abort with
    | none =>
      let s := s.setGroup { g with abort := some ⟨now + 64, now, seg⟩ }
      { s with abortMsgs := s.abortMsgs ++ (s.chTiles c).map fun t => (t, c) }
    | some b => s.setGroup { g with abort := some { b with seg := if seg.n < b.seg.n then seg else b.seg } }

/-- A tile's abort request, which names its segment by channel and checkpoint slot (R168): the instant is that of the checkpoint; where the slot does not hold
one of the channel yet, the fire that is announced (GUN_LATE, R165). -/
def State.abortRequest (s : State) (q : AbortReq) : State :=
  match sget none (s.tile q.tile).ckpt q.slot with
  | some k => if k.ch = q.ch.val then s.abortAt q.ch k.n else s.abortAt q.ch (((s.chan q.ch).ann.map Announce.n).getD 0)
  | none => s.abortAt q.ch (((s.chan q.ch).ann.map Announce.n).getD 0)

/-- UNTIMED_MESSAGE (R173): UNT is set; with UTA = 1 the message is an abort request. -/
def execUntimedMessage (q : AbortReq) (s : State) : Host.Outcome State Fault Refusal :=
  .next (s.onDom (s.chDom q.ch) fun s => let s := { s with untimed := s.untimed.erase q }
    let s := s.setFld .GUN_STAT [q.ch] F.GUN_STAT_UNT 1
    if s.fld .GUN_CHAN [q.ch] F.GUN_CHAN_UTA = 1 then s.abortRequest q else s)

/-- ABORT_REQUEST (R168). -/
def execAbortRequest (q : AbortReq) (s : State) : Host.Outcome State Fault Refusal :=
  .next (s.onDom (s.chDom q.ch) fun s => { s with abortReqs := s.abortReqs.erase q }.abortRequest q)

/-- Held reports sent: those of faults at or after R0 as secondary (R168). -/
def State.markHeld (s : State) (t r0 : Nat) : State :=
  let x := s.tile t
  let late := x.held.filter fun h => decide (r0 ≤ h.fc)
  let s := s.modTile t fun x => { x with held := x.held.filter fun h => decide (h.fc < r0) }
  let s := if late.isEmpty then s else s.modTile t fun x => x.setFld .SEG_FLT [] F.SEG_FLT_SEC 1
  late.foldl (fun s h => s.sendReport { h.rep with sec := true }) s

/-- ABORT_MESSAGE (R168): the message of the pending abort reaches a member tile. -/
def execAbortMessage (t : TileIx) (ch : ChanIx) (s : State) : Host.Outcome State Fault Refusal :=
  .next (s.onClock t fun s => let s := { s with abortMsgs := s.abortMsgs.erase (t.val, ch.val) }
    match (s.group (s.chMask ch)).abort with
    | some b =>
      if bit (s.chMask ch) (regionOf t) then (s.modTile t fun x => { x with seenR0 := some b.r0 }).markHeld t b.r0 else s
    | none => s)

/-- REPORT_MARK_DEADLINE (R168): 49 fc after its fault, a report that no abort message has marked is sent as primary. -/
def execReportMarkDeadline (t : TileIx) (s : State) : Host.Outcome State Fault Refusal :=
  .next (s.onClock t fun s => match (s.tile t).held with
    | [] => s
    | h :: _ =>
      let s := s.tileToFc t (h.fc + 49)
      let due := (s.tile t).held.filter fun h => decide (h.fc + 49 ≤ s.fc t)
      let s := s.modTile t fun x => { x with held := x.held.filter fun h => !decide (h.fc + 49 ≤ s.fc t) }
      due.foldl (fun s h => s.sendReport h.rep) s)

/-- The pace thread and the rollback rings of a tile set back to a checkpoint of the restarted segment (R169). -/
def Tile.rollBack (c fc : Nat) (ck : Ckpt) (t : Tile) : Tile :=
  let t := ck.rings.foldl (fun (t : Tile) r => t.setReg .RING_PTR [r.1] r.2) t
  if (t.th 0).st = .fault then t
  else
    let f := (sget none t.fires c).map fun f => { f with taken := true }
    { t.setTh 0 { ck.pace with st := .gun c 0 fc true } with flip := none, fires := sput none t.fires c f }

/-- Abort instant `a` in a member tile (R169): engines emptied and stopped, hop slots emptied and shut, fire records of the group from A
on and arm records of the restarted segment cleared, rings and pace thread set back from the tile's checkpoint of that segment, which becomes
current again. -/
def Tile.abortInstant (a : Nat) (chs : List Nat) (seg : Seg) (t : Tile) : Tile :=
  let t := t.mxeClear true
  let t := { t with vxq := [], vxe := { t.vxe with run := [], stopped := true, free := 0, lost := none } }
  let t := { (t.xfeClear true 0) with late := [], slots := [], hopShut := true, ringD := [], awaitA := [] }
  let t := { t with fires := t.fires.filter fun e => !(chs.contains e.1 && (match e.2 with | some f => decide (a ≤ f.n) | none => false)) }
  let t := { t with arms := t.arms.filter fun e => match e.2 with | some r => decide (r.fc < seg.n) | none => true }
  let k := (t.slotOf seg.ch seg.n).getD 0
  let t := match sget none t.ckpt k with
    | some ck => t.rollBack seg.ch a ck
    | none => t
  let w := F.SEG_STAT_CH.set (F.SEG_STAT_SLOT.set (F.SEG_STAT_CKV.set (F.SEG_STAT_VALID.set (t.reg .SEG_STAT []) 1) 1) k) seg.ch
  { t.setReg .SEG_STAT [] w with seenR0 := none }

/-- What an abort at A does to a channel of the group: the counts of one that has not fired since the restarted segment began are
cleared, a fire announced for A or later is withdrawn (R169); its channel returns to COLLECT (DESIGN CHOICE, log 73: R169 deletes the tiles' fire
records and does not name the channel's state). -/
def State.abortChan (a n : Nat) (s : State) (c : Nat) : State :=
  let x := s.chan c
  let stale := match x.fired with | some f => decide (f.1 ≤ n) | none => true
  let s := if stale then (s.setFld .GUN_STAT [c] F.GUN_STAT_COUNT 0).modChan c fun x => { x with got := [], errAt := false } else s
  match x.ann with
  | some f => if a ≤ f.n then (s.modChan c fun x => { x with ann := none }).setChState c 1 else s
  | none => s

/-- ABORT_INSTANT (R169): the pending abort of a channel's group in its instant. -/
def execAbortInstant (ch : ChanIx) (s : State) : Host.Outcome State Fault Refusal :=
  .next (s.onDom (s.chDom ch) fun s => let mask := s.chMask ch
    match (s.group mask).abort with
    | none => s
    | some b =>
      let s := s.toFc (s.chDom ch) b.a
      let g := s.group mask
      match g.abort with
      | none => s
      | some ⟨a, _, seg⟩ =>
        let chs := s.chansOf mask
        let s := s.modTiles (tilesOfMask mask) (Tile.abortInstant a chs seg)
        let s := chs.foldl (State.abortChan a seg.n) s
        let s := { s with
          fires := s.fires.filter fun e => !(chs.contains e.2.ch.val && decide (a ≤ e.2.n))
          abortReqs := s.abortReqs.filter fun q => decide (s.chMask q.ch ≠ mask) }
        let s := s.setGroup { g with abort := none, segs := seg :: g.segs.filter fun x => decide (x ≠ seg) }
        ((s.modChan seg.ch fun x => { x with rv := seg.verdict }).setChState seg.ch 4).incSat .GUN_STAT [seg.ch]
          F.GUN_STAT_ABORT_CNT 1)

/-! ### Configuration and control (R159, R180, R203, R432) -/

/-- Whether a channel's configuration may be enabled, R159. -/
def State.chanOk (s : State) (c : Nat) (v : W64) : Bool :=
  let mask := F.GUN_CHAN_RMASK.get v
  let d := F.GUN_CHAN_POLDER.get v
  let e := F.GUN_CHAN_EXPECT.get v
  decide (mask ≠ 0) && ((regionsOf mask).all fun r => decide (s.polderOf r = some d)) && decide (1 ≤ e) &&
    decide (e ≤ 48 * (regionsOf mask).length) && decide (64 ≤ F.GUN_CHAN_LEAD.get v) &&
    ((List.range 64).all fun k => decide (k = c) || decide (s.fld .GUN_CHAN [k] F.GUN_CHAN_EN = 0) || decide (s.chMask k = mask) ||
      decide (s.chMask k &&& mask = 0))

/-- GUN_CHAN (R180): accepted with EN 0, or to clear EN outside ANNOUNCED; POLDER only from the management core. -/
def State.wrGunChan (src : Writer) (c : Nat) (v : W64) (s : State) : State :=
  let old := s.reg .GUN_CHAN [c]
  let w := writeFields Reg.GUN_CHAN.info.flds old v
  let w := if isMgmt src then w else F.GUN_CHAN_POLDER.set w (F.GUN_CHAN_POLDER.get old)
  if F.GUN_CHAN_EN.get old = 1 then
    if F.GUN_CHAN_EN.get v = 0 && decide (s.chState c ≠ 2) then
      (((s.setReg .GUN_CHAN [c] w).setChState c 0).setFld .GUN_STAT [c] F.GUN_STAT_COUNT 0).modChan c fun _ => Chan.init
    else s.setFld .GUN_STAT [c] F.GUN_STAT_CFG_REJ 1
  else if F.GUN_CHAN_EN.get v = 0 then s.setReg .GUN_CHAN [c] w
  else if s.chanOk c w then
    (((s.setReg .GUN_CHAN [c] w).setChState c 1).setFld .GUN_STAT [c] F.GUN_STAT_COUNT 0).modChan c fun _ =>
      { Chan.init with since := s.wt }
  else (s.setReg .GUN_CHAN [c] (F.GUN_CHAN_EN.set w 0)).setFld .GUN_STAT [c] F.GUN_STAT_CFG_REJ 1

/-- RECOUNT (R161, R432): in ERROR the count goes to 0, the channel to COLLECT, spent arm records of member tiles are armed again. -/
def State.gunRecount (c : Nat) (s : State) : State :=
  if s.chState c = 3 then
    let s := ((s.setChState c 1).setFld .GUN_STAT [c] F.GUN_STAT_COUNT 0).modChan c fun x => { x with got := [] }
    s.modTiles (s.chTiles c) fun t =>
      match sget none t.arms c with
      | some a => if a.spent then { t with arms := sput none t.arms c (some { a with spent := false }) } else t
      | none => t
  else s.setFld .GUN_STAT [c] F.GUN_STAT_CFG_REJ 1

/-- KILL or FINISH arrives for a polder (R339): Q is 64 fc later; a further one joins. -/
def State.endAt (s : State) (d : Nat) : State :=
  if (sget none s.quarAt d).isSome then s else { s with quarAt := sput none s.quarAt d (some ((s.dom d).fc + 64)) }

/-- A channel of a polder has failed, or stays ABORTED: SEGMENT_FAILED, and Terern kills the job where POLICY.AUTOKILL says so (R171, R392,
R393). -/
def State.segFailed (s : State) (c : Nat) : State :=
  let d := s.chDom c
  let s := s.event 3 (some d) [BitVec.ofNat 8 c]
  if bit (s.fld .POLICY [] F.POLICY_AUTOKILL) d && (decide (s.polderState d = 1) || decide (s.polderState d = 2)) then s.endAt d else s

/-- GO (R171, R432): in ABORTED a re-runnable segment fires again with its verdict; otherwise the channel fails, with a host event. -/
def State.gunGo (c : Nat) (s : State) : State :=
  if s.chState c = 4 then
    let r := s.fld .GUN_STAT [c] F.GUN_STAT_RETRY
    if decide (s.fld .GUN_CHAN [c] F.GUN_CHAN_RERUN = 1) && decide (r < 2) then
      (s.setFld .GUN_STAT [c] F.GUN_STAT_RETRY (r + 1)).announce c (s.chFc c) (s.chan c).rv true
    else (s.setChState c 5).segFailed c
  else s.setFld .GUN_STAT [c] F.GUN_STAT_CFG_REJ 1

/-- A re-run ordered by Terern, R171: every pace thread of the group that stands in FAULT is restored, which asks for a halted one (R172), then GO is
written. -/
def State.terernGo (c : Nat) (s : State) : State :=
  let ts := (s.chTiles c).filter fun t => decide (((s.tile t).th 0).st = .fault)
  (ts.foldl (fun s t => s.modTile t fun x => (x.halt 0).wrRestore .mgmt (s.fc t)) s).gunGo c

/-- ABORT (R432): an abort request of the management core for the channel's latest segment, while the group's checkpoint slots hold it. -/
def State.gunAbort (c : Nat) (s : State) : State :=
  let ok := s.chState c = 1 || s.chState c = 2 || s.chState c = 3
  match (s.chan c).fired with
  | some f =>
    match (s.group (s.chMask c)).segs.find? fun x => decide (x.ch = c) && decide (x.n = f.1) with
    | some seg => if ok then s.abortAt c seg.n else s.setFld .GUN_STAT [c] F.GUN_STAT_CFG_REJ 1
    | none => s.setFld .GUN_STAT [c] F.GUN_STAT_CFG_REJ 1
  | none => s.setFld .GUN_STAT [c] F.GUN_STAT_CFG_REJ 1

/-- GUN_CTL as a register write: one bit acts, more than one sets CFG_REJ (R432). -/
def State.wrGunCtl (c : Nat) (v : W64) (s : State) : State :=
  match v.toNat % 8 with
  | 0 => s
  | 1 => s.gunAbort c
  | 2 => s.gunGo c
  | 4 => s.gunRecount c
  | _ => s.setFld .GUN_STAT [c] F.GUN_STAT_CFG_REJ 1

/-- GUN_VCFG (R203): VDEF, MODE and LEADT only while the channel is disabled and MODE is not 7. -/
def State.wrGunVcfg (c : Nat) (v : W64) (s : State) : State :=
  let old := s.reg .GUN_VCFG [c]
  if decide (s.fld .GUN_CHAN [c] F.GUN_CHAN_EN = 0) && decide (F.GUN_VCFG_MODE.get v ≠ 7) then
    s.write .GUN_VCFG [c] v
  else
    (s.write .GUN_VCFG [c] (F.GUN_VCFG_VCONF.set old (F.GUN_VCFG_VCONF.get v))).setFld .GUN_STAT [c] F.GUN_STAT_CFG_REJ 1

/-- GUN_CHAN_WRITE. -/
def execGunChanWrite (src : Writer) (ch : ChanIx) (v : W64) (s : State) : Host.Outcome State Fault Refusal :=
  .next (s.chipBy src (State.wrGunChan src ch v))
/-- GUN_RECOUNT. -/
def execGunRecount (ch : ChanIx) (s : State) : Host.Outcome State Fault Refusal := .next (s.gunRecount ch)
/-- GUN_GO. -/
def execGunGo (ch : ChanIx) (s : State) : Host.Outcome State Fault Refusal := .next (s.gunGo ch)
/-- GUN_ABORT. -/
def execGunAbort (ch : ChanIx) (s : State) : Host.Outcome State Fault Refusal := .next (s.gunAbort ch)
/-- GUN_VCFG_WRITE. -/
def execGunVcfgWrite (src : Writer) (ch : ChanIx) (v : W64) (s : State) : Host.Outcome State Fault Refusal :=
  .next (s.chipBy src (State.wrGunVcfg ch v))

end Sys2Proof.Machine
end

