-- ==== Sys2Proof/Machine/Clock.lean ====
section
/-! DEFINITION. Region clocks, frequency, voltage read-back and the timebase (chapter 09, R216 to R232; R409). -/
namespace Sys2Proof.Machine

/-! ### Stretch waves (R218, R219) -/

/-- The first fc at or after `f` that no wave stretches in a region, within `n` fc. -/
def freeFc (l : List Stretch) (r : Nat) : Nat → Nat → Nat
  | 0, f => f
  | n + 1, f => if l.any fun x => decide (x.region = r) && decide (x.fc = f) then freeFc l r n (f + 1) else f

/-- A wave falls on fc `f` of a region: of two on one fc the lower origin keeps it, the other takes the next fc that no wave stretches,
and DEFER is set (R219). -/
def State.addStretch (s : State) (x : Stretch) : State :=
  match s.stretch.find? fun y => decide (y.region = x.region) && decide (y.fc = x.fc) with
  | none => { s with stretch := x :: s.stretch }
  | some y =>
    let rest := s.stretch.erase y
    let win := if x.origin < y.origin then x else y
    let lose := if x.origin < y.origin then y else x
    let l := win :: rest
    ({ s with stretch := { lose with fc := freeFc l x.region (l.length + 1) (x.fc + 1) } :: l }).setFld .REG_CLK [x.region]
      F.REG_CLK_DEFER 1

/-- DROOP_STRETCH (R218): the region's next fc is stretched, counted by its factor, and a wave starts to every other region of the
domain; the domain spends the stretched time once. -/
def execDroopStretch (r : RegionIx) (two : Bool) (s : State) : Host.Outcome State Fault Refusal :=
  .next (let s1 := s.incSat .REG_CLK [r] (if two then F.REG_CLK_ORIG20 else F.REG_CLK_ORIG15) 1
    match s.polderOf r with
    | none => s1
    | some d =>
      let x := s.dom d
      let c := x.fc + 1
      let rs := (List.range 24).filter fun k => decide (k ≠ r.val) && decide (s.polderOf k = some d)
      let s2 := { s1 with
        stretch := s1.stretch.filter fun y => decide (s.polderOf y.region ≠ some d) || decide (x.fc ≤ y.start + 1024)
        waves := s1.waves ++ rs.map fun k => (k, (⟨r, c, two⟩ : Wave)) }
      let s3 := s2.addStretch ⟨r, c, r, c, two⟩
      (s3.setDom d { x with debt := x.debt + if two then 64 else 32 }).incWrap .DOM_STAT [d] F.DOM_STAT_WAVE_CNT 1)

/-- STRETCH_WAVE (R219): a wave in flight reaches a region, which stretches its fc c + h by the wave's factor, once. -/
def execStretchWave (r : RegionIx) (w : Wave) (s : State) : Host.Outcome State Fault Refusal :=
  .next (if s.waves.contains (r.val, w) then
      { s with waves := s.waves.erase (r.val, w) }.addStretch ⟨r, w.fc + regionDist w.origin r, w.origin, w.fc, w.two⟩
    else s)

/-! ### Frequency (R222 to R225) -/

/-- FMAXA of both halves, R224 R225: each half's own in Split mode, one value in Locked mode. -/
def State.halfMax (s : State) (h : Nat) : Nat :=
  let own := fun h => min (s.app .HALF_CFG [h] F.HALF_CFG_FMAX) (s.fld .HALF_STAT [h] F.HALF_STAT_FCEIL)
  if s.fld .SEAM_STAT [] F.SEAM_STAT_MODEA = 1 then own h else min (own 0) (own 1)

/-- The terms of R222 looked at again: a change of FAPP waits for its switch fc, the first multiple of 1,024 at least 64 fc after it; an earlier
change whose switch fc comes first still takes place at it. In a domain that is not formed a change applies at once. -/
def State.retune (s : State) (d : Nat) : State :=
  let t := s.freqTerms d
  let m := min t.1 (min t.2.1 t.2.2)
  let s := (s.setFld .DOM_STAT [d] F.DOM_STAT_FMON t.2.1).setFld .DOM_STAT [d] F.DOM_STAT_FHALF t.2.2
  let x := s.dom d
  if !x.formed then (s.setFapp d m).setDom d { x with switch := [] }
  else
    let f := (x.fc + 64 + 1023) / 1024 * 1024
    let keep := x.switch.filter fun w => decide (w.1 < f)
    let last := (keep.getLast?.map Prod.snd).getD (s.fapp d)
    (s.setFapp d (s.fapp d)).setDom d { x with switch := if last = m then keep else keep ++ [(f, m)] }

/-- A change of FAPP that is committed at a gun takes effect at its fire instant, which is now (R222). -/
def State.retuneNow (s : State) (d : Nat) : State :=
  let t := s.freqTerms d
  (s.setFapp d (min t.1 (min t.2.1 t.2.2))).setDom d { s.dom d with switch := [] }

/-- FMAXA of the halves and every domain looked at again. -/
def State.retuneAll (s : State) : State :=
  let s := [0, 1].foldl (fun a h => a.setFld .HALF_STAT [h] F.HALF_STAT_FMAXA (s.halfMax h)) s
  (List.range 8).foldl State.retune s

/-- A region's monitor request, and its domain's frequency after it. -/
def State.setMon (s : State) (r m : Nat) : State :=
  let s := s.setFld .REG_CLK [r] F.REG_CLK_FMON (max 19 (min 64 m))
  match s.polderOf r with
  | some d => s.retune d
  | none => s

/-- MONITOR_REQUEST (R223): a lower m. -/
def execMonitorRequest (r : RegionIx) (m : Nat) (s : State) : Host.Outcome State Fault Refusal :=
  .next (if m < s.fld .REG_CLK [r] F.REG_CLK_FMON then { s.setMon r m with monAt := sput 0 s.monAt r s.wt } else s)

/-- MONITOR_WITHDRAW (R223): the request goes up to m, no sooner than 1 ms of wall time, in which the sensors have shown margin, after it was
made. -/
def execMonitorWithdraw (r : RegionIx) (m : Nat) (s : State) : Host.Outcome State Fault Refusal :=
  .next (if s.fld .REG_CLK [r] F.REG_CLK_FMON < m then (s.toWt (sget 0 s.monAt r + 256000000)).setMon r m else s)

/-- FREQ_SWITCH (R222): at the next switch fc the domain changes to the new FAPP. -/
def execFreqSwitch (d : PolderIx) (s : State) : Host.Outcome State Fault Refusal :=
  .next (match (s.dom d).switch with
    | [] => s
    | (f, _) :: _ => s.toFc d f)

/-- AVS_READBACK (R409, R224): voltage and current of a rail; an error status counts; FCEIL of a core rail's half follows. -/
def execAvsReadback (a : AvsIx) (mv amps ceil : Nat) (error : Bool) (s : State) : Host.Outcome State Fault Refusal :=
  .next (let s := (s.setFld .AVS_STAT [a] F.AVS_STAT_MEAS_MV mv).setFld .AVS_STAT [a] F.AVS_STAT_AMPS amps
    let s := if error then (s.setFld .AVS_STAT [a] F.AVS_STAT_ERR 1).incSat .AVS_STAT [a] F.AVS_STAT_ERR_CNT 1 else s
    if a.val = 0 then s
    else
      let h := a.val - 1
      ((s.setFld .HALF_STAT [h] F.HALF_STAT_MV mv).setFld .HALF_STAT [h] F.HALF_STAT_FCEIL (max 19 (min 64 ceil))).retuneAll)

/-- AVS_SET (R409): written by the management core only; a value outside the rail's range is ignored and sets CFG_REJ. -/
def State.wrAvs (src : Writer) (a : Nat) (v : W64) (s : State) : State :=
  let mv := F.AVS_SET_MV.get v
  if !isMgmt src then s
  else if (if a = 0 then decide (780 ≤ mv) && decide (mv ≤ 820) else decide (600 ≤ mv) && decide (mv ≤ 850)) then
    s.setFld .AVS_SET [a] F.AVS_SET_MV mv
  else s.setFld .PWR_STAT [] F.PWR_STAT_CFG_REJ 1

/-- AVS_SET. -/
def execAvsSet (src : Writer) (a : AvsIx) (v : W64) (s : State) : Host.Outcome State Fault Refusal :=
  .next (s.chipBy src (State.wrAvs src a v))

/-! ### Timebase (R228 to R231) -/

/-- A region's timekeeper at a pace pulse that carries wt `p`, R228: it removes its difference by its rate over the next microsecond; its wt never
decreases. -/
def State.paceKeeper (p : Nat) (s : State) (r : Nat) : State :=
  let own := s.regWt r
  let rate := max (-rateOne) (((p : Int) - own) * 1000000)
  { s with timekeepers := sput none s.timekeepers r (some ⟨s.ref, own, rate⟩) }

/-- PACE_PULSE (R228): the pulse of the next whole microsecond of wt reaches the 24 timekeepers. -/
def execPacePulse (s : State) : Host.Outcome State Fault Refusal :=
  .next (let s := s.toNs ((s.ns / 1000 + 1) * 1000)
    (List.range 24).foldl (State.paceKeeper s.wt) s)

/-- A two's complement field of an integer. -/
def intFld (n : Nat) (v : Int) : Nat := (v % (2 ^ n : Nat)).toNat

/-- SRCA as it shows a source: 0 until a source has locked since reset, then the source in use (R231, R232). -/
def State.showSource (s : State) (lock : Bool) (src : Nat) : State :=
  let s := { s with tbSrc := src }
  if lock || decide (s.fld .TB_STAT [] F.TB_STAT_SRCA ≠ 0) then s.setFld .TB_STAT [] F.TB_STAT_SRCA src else s

/-- An offset to the source in 1/256 ns, with its path delay and source code: the rate is set to remove it within the next millisecond, in steps
of 1/256,000 ppm and within SLEWMAX (R229; DESIGN CHOICE, log 28), LOCK shows eight offsets within 25 ns (R231). -/
def State.steer (s : State) (off : Int) (delay src : Nat) : State :=
  let offs := (off :: s.offs).take 8
  let slew : Int := s.fld .TB_CTL [] F.TB_CTL_SLEWMAX * 256000
  let lock := decide (offs.length = 8) && offs.all fun o => decide (o.natAbs ≤ 25 * 256)
  let w := s.reg .TB_STAT []
  let w := F.TB_STAT_OFFSET.set (F.TB_STAT_DELAY.set w (min delay 0xFFFF)) (intFld 32 (off / 256))
  let s := { s.setReg .TB_STAT [] (F.TB_STAT_LOCK.set w (if lock then 1 else 0)) with offs := offs, rateAdj := max (-slew) (min slew off) }
  s.showSource lock src

/-- PPS_IN (R231): the edge marks a whole UTC second; it is timestamped, and with SRC 0 or 1 the timebase steers to it. -/
def execPpsIn (s : State) : Host.Outcome State Fault Refusal :=
  .next (let sec := 1000000000 * 256
    let s1 := s.setReg .TB_PPS [] (BitVec.ofNat 64 s.ns)
    let near := (s.wt + sec / 2) / sec * sec
    if s.fld .TB_CTL [] F.TB_CTL_SRC ≤ 1 then s1.steer ((near : Int) - s.wt) 0 1 else s1)

/-- TB_CTL.STEP (R229): wt goes to TB_SET only while no polder is RUNNING and TB_SET lies ahead. -/
def State.tbStep (s : State) : State :=
  let ns := (s.reg .TB_SET []).toNat
  if ((List.range 8).all fun d => decide (s.polderState d ≠ 2)) && decide (s.wt < ns * 256) then
    { s.setFld .TB_STAT [] F.TB_STAT_STEPPED 1 with wt := ns * 256, wtSub := 0 }
  else s.setFld .TB_STAT [] F.TB_STAT_STEPREJ 1

/-- TB_STEP. -/
def execTbStep (src : Writer) (s : State) : Host.Outcome State Fault Refusal := .next (s.chipBy src State.tbStep)

/-- TIMEBASE_HOLDOVER (R231): with SRC = 0 and no source, or told to free-run, the timebase runs unsteered. -/
def execTimebaseHoldover (s : State) : Host.Outcome State Fault Refusal :=
  .next (let src := s.fld .TB_CTL [] F.TB_CTL_SRC
    if src = 0 || src = 3 then { s with rateAdj := 0 }.showSource false 3 else s)

end Sys2Proof.Machine
end

