-- ==== Sys2Proof/Machine/Pack.lean ====
section
/-! DEFINITION. Fixed-rate packing of blocks of 256 elements (chapter 12): levels, tables, codes, reconstruction, header checks. -/
namespace Sys2Proof.Machine

/-- A declaration byte, Table 12-7. -/
structure Decl where
  en : Bool
  keep : Bool
  six : Bool
  fp32 : Bool
  srcp : Bool
  deriving DecidableEq, Repr

/-- The fields of a declaration byte. -/
def declOf (v : Nat) : Decl := ⟨bit v 7, bit v 6, bit v 5, bit v 4, bit v 3⟩
/-- Code width b. -/
def Decl.width (d : Decl) : Nat := if d.six then 6 else 4
/-- Packed size of a block in lines (Table 12-1). -/
def Decl.packed (d : Decl) : Nat := if d.six then 4 else 3
/-- Lines of a source or unpacked block (R303). -/
def Decl.source (d : Decl) : Nat := if d.fp32 then 16 else 8
/-- Landed lines per block (Table 12-1). -/
def Decl.landed (d : Decl) : Nat := if d.keep then d.packed else d.source
/-- Levels H of a mode (R306). -/
def Decl.levels (d : Decl) : Nat := if d.six then 32 else 8
/-- The format code of SFMT (Table 12-2). -/
def Decl.fmt (d : Decl) : Nat := if d.fp32 then 0xC else 0xA

/-- The value of a level byte in units of 2^-18 (R307). -/
def ueUnits (m : Nat) : Nat := if m / 16 = 0 then m % 16 else (16 + m % 16) * 2 ^ (m / 16 - 1)

/-- The distance of two naturals. -/
def natDist (a b : Nat) : Nat := (a - b) + (b - a)

/-- near(u) of R308 for u given with the value of one unit 2^-18: ties go to the even byte. -/
def nearByte (a unit : Nat) : Nat :=
  (List.range 256).foldl (fun best m =>
    let d := natDist a (ueUnits m * unit); let e := natDist a (ueUnits best * unit)
    if d < e || (d = e && m % 2 = 0) then m else best) 0

/-- up(u) of R308: the smallest byte whose value is at least u, 0xFF beyond. -/
def upByte (a unit : Nat) : Nat := ((List.range 256).find? fun m => decide (a ≤ ueUnits m * unit)).getD 255

/-- Magnitude of a finite FP32 value in units of 2^-149. -/
def mag32 (w : Nat) : Nat := let e := bits w 30 23; if e = 0 then bits w 22 0 else (2 ^ 23 + bits w 22 0) * 2 ^ (e - 1)
/-- Whether an FP32 value is finite. -/
def fin32 (w : Nat) : Bool := decide (bits w 30 23 ≠ 255)
/-- Whether an FP32 value is a NaN. -/
def nanBits (w : Nat) : Bool := !fin32 w && decide (bits w 22 0 ≠ 0)

/-- The elements of a source block as FP32 (R303, R308). -/
def blockElems (d : Decl) (b : Bytes) : List Nat :=
  (List.range 256).map fun e => if d.fp32 then leNat (slice b (4 * e) 4) else leNat (slice b (2 * e) 2) * 65536

/-- The shared exponent X of a block (R308). -/
def sharedExp (xs : List Nat) : Nat :=
  let a := ((xs.filter fin32).map mag32).foldl max 0
  if a = 0 then 0 else max 1 (min 254 (Nat.log2 a + 128 - 149))

/-- One unit 2^-18 of u = |x|/sc in units of 2^-149. -/
def levelUnit (x : Nat) : Nat := 2 ^ (x + 4)

/-- The level bytes M[0] to M[H - 1] of a block (R308). -/
def levelsOf (h : Nat) (xs : List Nat) : List Nat :=
  let x := sharedExp xs
  if x = 0 then List.replicate h 0
  else
    let u := levelUnit x
    let mags := (xs.filter fin32).map mag32
    let near := mags.map fun a => nearByte a u
    let c := (List.range 256).flatMap fun b => if b = 0 then [] else List.replicate (near.filter (· = b)).length b
    let n := c.length
    let top := upByte (mags.foldl max 0) u
    let q := h - 2
    0 :: ((List.range q).map fun j => if n = 0 then top else c.getD ((2 * (j + 1) - 1) * n / (2 * q)) 0) ++ [top]

/-- The smallest index whose level is nearest to a magnitude. -/
def nearIndex (ms : List Nat) (a unit : Nat) : Nat :=
  (List.range ms.length).foldl (fun best i =>
    if natDist a (ueUnits (ms.getD i 0) * unit) < natDist a (ueUnits (ms.getD best 0) * unit) then i else best) 0

/-- The code of an element (R308). -/
def codeOf (b : Nat) (ms : List Nat) (unit : Nat) (w : Nat) : Nat :=
  let i := if nanBits w then 0 else if fin32 w then nearIndex ms (mag32 w) unit else ms.length - 1
  let s := if 0 < i then bits w 31 31 else 0
  s * 2 ^ (b - 1) + i

/-- Block `idx` of a message packed (R306, R308). -/
def packBlock (d : Decl) (idx : Nat) (src : Bytes) : Bytes :=
  let xs := blockElems d src
  let ms := levelsOf d.levels xs
  let x := sharedExp xs
  let head := natLe 2 0x7A6B ++ [1, BitVec.ofNat 8 d.width, BitVec.ofNat 8 d.fmt, BitVec.ofNat 8 x] ++ natLe 2 (idx % 65536) ++
    List.replicate 8 0 ++ (ms.drop 1).map (BitVec.ofNat 8)
  let cs := xs.map (codeOf d.width ms (levelUnit x))
  padTo head 64 ++ natLe (32 * d.width) (cs.foldr (fun c a => c + 2 ^ d.width * a) 0)

/-- NaNs and infinities of a source block (R308). -/
def nonFinite (d : Decl) (src : Bytes) : Nat := ((blockElems d src).filter fun w => !fin32 w).length

/-- An element rebuilt (R310): the code's level times 2^(X - 127), +0.0 for index 0. -/
def unpackElem (b : Nat) (ms : List Nat) (x code : Nat) : FV :=
  let i := code % 2 ^ (b - 1)
  let neg := bit code (b - 1) && decide (0 < i)
  let v : Int := (ueUnits (ms.getD i 0) * 2 ^ (x + 175) : Nat)
  ofUnits (if neg then -v else v) neg

/-- The lines of an unpacked block (R304, R310). -/
def unpackBlock (d : Decl) (p : Bytes) : Bytes :=
  let ms := 0 :: ((List.range (d.levels - 1)).map fun i => (byteAt p (16 + i)).toNat)
  let x := (byteAt p 5).toNat
  let cs := leNat (slice p 64 (32 * d.width))
  (List.range 256).flatMap fun e =>
    let v := unpackElem d.width ms x (cs / 2 ^ (d.width * e) % 2 ^ d.width)
    if d.fp32 then natLe 4 (fmt32.encode v) else natLe 2 (fmtB16.encode v)

/-- The header checks of Table 12-3 for block `idx`: the first cause, 3 to 8, that fails. -/
def blockCause (d : Decl) (idx : Nat) (p : Bytes) : Option Nat :=
  let lev := (List.range (d.levels - 1)).map fun i => (byteAt p (16 + i)).toNat
  let x := (byteAt p 5).toNat
  if leNat (slice p 0 2) ≠ 0x7A6B ∨ byteAt p 2 ≠ 1 ∨ slice p 8 8 ≠ List.replicate 8 0 ∨
      slice p (15 + d.levels) (49 - d.levels) ≠ List.replicate (49 - d.levels) 0 then some 3
  else if (byteAt p 3).toNat ≠ d.width then some 4
  else if (byteAt p 4).toNat ≠ d.fmt then some 5
  else if leNat (slice p 6 2) ≠ idx % 65536 then some 6
  else if x = 255 ∨ (x = 0 ∧ lev.any (· ≠ 0)) then some 7
  else if (lev.zip (lev.drop 1)).any fun e => decide (e.2 < e.1) then some 8
  else none

/-- What packing makes of the source lines of a message: the bytes to send with their blocks, non-finite elements and landed lines;
or lines that are not whole source blocks; or an already packed block that fails its check (R303). -/
inductive PackRes where
  | ok (data : Bytes) (blocks nonfin lines : Nat)
  | notWhole
  | badBlock
  deriving DecidableEq, Repr

/-- The source lines of a message packed under its declaration (R303, R308). -/
def packLines (d : Decl) (src : Bytes) : PackRes :=
  let unit := 64 * if d.srcp then d.packed else d.source
  if src.length % unit ≠ 0 then .notWhole
  else
    let n := src.length / unit
    let bs := (List.range n).map fun i => slice src (unit * i) unit
    if d.srcp then
      if (List.range n).any fun i => (blockCause d i (bs.getD i [])).isSome then .badBlock
      else .ok src n 0 (n * d.landed)
    else
      .ok ((List.range n).flatMap fun i => packBlock d i (bs.getD i [])) n ((bs.map (nonFinite d)).foldl (· + ·) 0) (n * d.landed)

end Sys2Proof.Machine
end

