-- ==== Sys2Proof/Machine/Port.lean ====
section
/-! DEFINITION. Afrel ports and paths (R235 to R260): flits, credits, windows, states, paths; completions to requesters (R263, R264). -/
namespace Sys2Proof.Machine

/-! ### Accessors -/

/-- A port beyond its registers. -/
def State.lport (s : State) (p : Nat) : LPort := sget LPort.init s.ports p
/-- A port changed. -/
def State.modPort (s : State) (p : Nat) (f : LPort → LPort) : State := { s with ports := sput LPort.init s.ports p (f (s.lport p)) }
/-- STATE of a port (Table 10-6): 0 OFF, 1 TRAINING, 2 UP, 3 DRAIN, 4 DOWN, 5 HELD, 6 RETIRED. -/
def State.portState (s : State) (p : Nat) : Nat := s.fld .PORT_STAT [p] F.PORT_STAT_STATE
/-- STATE of a port written. -/
def State.setPortState (s : State) (p v : Nat) : State := s.setFld .PORT_STAT [p] F.PORT_STAT_STATE v
/-- A path beyond its registers. -/
def State.lpath (s : State) (n : Nat) : LPath := sget LPath.init s.paths n
/-- A path changed. -/
def State.modPath (s : State) (n : Nat) (f : LPath → LPath) : State := { s with paths := sput LPath.init s.paths n (f (s.lpath n)) }

/-- The sequence space of a class (Table 10-4): 0 main, 1 C0, 2 C1. -/
def spaceOf (cls : Nat) : Nat := if cls = 0 then 1 else if cls = 1 then 2 else 0
/-- A space's number. -/
def spaceNo : Space → Nat
  | .main => 0
  | .c0 => 1
  | .c1 => 2
/-- Flits of a space's replay buffer (Table 10-5). -/
def bufCap (sp : Nat) : Nat := if sp = 0 then 1024 else 64
/-- The lanes of a width code (Table 10-1). -/
def lanesOf (w : Nat) : Nat := 8 / 2 ^ w
/-- The width code of a number of lanes. -/
def widthOf (l : Nat) : Nat := if 8 ≤ l then 0 else if 4 ≤ l then 1 else 2

/-! ### Completions (R263, R264) -/

/-- The hub's counter of a status (Table 10-10). -/
def State.hubCount (s : State) (h status : Nat) : State :=
  if 16 ≤ h then s
  else match status with
    | 1 => s.incSat .HUB_CNT [h] F.HUB_CNT_TENANT_DROP_CNT 1
    | 3 => s.incSat .HUB_CNT [h] F.HUB_CNT_SLV_CNT 1
    | 4 => s.incSat .HUB_CNT [h] F.HUB_CNT_OVR_CNT 1
    | 0 | 6 | 7 => s
    | _ => s.incSat .HUB_CNT [h] F.HUB_CNT_BADREQ_CNT 1

/-- A requester told of its request's outcome once: 1 added to its gauge, with E for any status but OK (R263), through its dike (R336). -/
def State.tell (s : State) (h tile tenant : Nat) (cg : Option Nat) (status : Nat) : State :=
  match cg with
  | none => s
  | some g =>
    s.route ⟨tile, 1152 + h, tenant, 1, 0⟩ fun s =>
      if s.dikeTile (1152 + h) tenant tile then s.modTile tile fun x => x.gadd g 1 (decide (status ≠ 0)) else s.svcDrop

/-- A message completed at its source (R263): SLUICE_VIOLATION is also reported and aborts the requester's segment (R264). -/
def State.complete (s : State) (m : Msg) (status : Nat) : State :=
  let s := s.tell m.hub m.tile m.tenant m.cg status
  if status = 3 then
    (s.sendReport (s.mkReport (1152 + m.hub) (0x70 + (Config.faultCode 3).toNat) (culTile m.tile) culNone [])).abortSeg m.tile
  else s

/-! ### Paths (R258 to R260) -/

/-- The ports of a path, as applied; none of one that is not enabled. -/
def State.pathPorts (s : State) (n : Nat) : List Nat :=
  if s.app .PATH_CFG [n] F.PATH_CFG_EN = 1 then (List.range 16).filter fun p => bit (s.app .PATH_CFG [n] F.PATH_CFG_PORTS) p else []
/-- The path a port belongs to. -/
def State.pathOf (s : State) (p : Nat) : Option Nat := (List.range 32).find? fun n => (s.pathPorts n).contains p
/-- Whether a port has trained to another peer than that of its path: it carries only C0 (R258). -/
def State.peerMm (s : State) (p : Nat) : Bool :=
  match s.pathOf p with
  | some n => decide (s.fld .PORT_STAT [p] F.PORT_STAT_PEERID ≠ s.app .PATH_CFG [n] F.PATH_CFG_PEER)
  | none => false
/-- The usable ports of a path: UP and trained to its PEER (R258). -/
def State.usable (s : State) (n : Nat) : List Nat :=
  (s.pathPorts n).filter fun p => decide (s.portState p = 2) &&
    decide (s.fld .PORT_STAT [p] F.PORT_STAT_PEERID = s.app .PATH_CFG [n] F.PATH_CFG_PEER)

/-- The state of a path by the states of its ports, R260: 0 OFF, 1 UP, 2 GRACE with its timer, 3 FAILED, 4 HELD with the timer
suspended. -/
def State.pathLook (s : State) (n : Nat) : State :=
  let u := s.usable n
  let st := s.fld .PATH_STAT [n] F.PATH_STAT_STATE
  let s := s.setFld .PATH_STAT [n] F.PATH_STAT_USABLE ((u.map fun p => 2 ^ p).foldl (· + ·) 0)
  let full := nsWt (1000000 * s.app .PATH_CFG [n] F.PATH_CFG_GRACE)
  let x := s.lpath n
  let left := match x.since with
    | some t => x.left - (s.wt - t)
    | none => x.left
  if (s.pathPorts n).isEmpty then
    (s.setFld .PATH_STAT [n] F.PATH_STAT_STATE 0).modPath n fun x => { x with since := none, left := full }
  else if !u.isEmpty then
    (s.setFld .PATH_STAT [n] F.PATH_STAT_STATE 1).modPath n fun x => { x with since := none, left := full }
  else if st = 3 then s
  else if (s.pathPorts n).any fun p => decide (s.portState p = 5) then
    (s.setFld .PATH_STAT [n] F.PATH_STAT_STATE 4).modPath n fun x => { x with since := none, left := left }
  else if st = 2 then s
  else
    (s.setFld .PATH_STAT [n] F.PATH_STAT_STATE 2).modPath n fun x =>
      { x with since := some s.wt, left := if st = 4 then left else full }

/-- Every path looked at again. -/
def State.pathsLook (s : State) : State := (List.range 32).foldl State.pathLook s

/-- A message given to a path: a FAILED path completes it with GRACE_EXPIRED at once (R260). -/
def State.submit (s : State) (n : Nat) (m : Msg) : State :=
  if s.fld .PATH_STAT [n] F.PATH_STAT_STATE = 3 then (s.incSat .PATH_STAT [n] F.PATH_STAT_FLUSH_CNT 1).complete m 7
  else s.modPath n fun x => { x with q := sput [] x.q m.cls (sget [] x.q m.cls ++ [m]) }

/-- Whether a port holds something of a key that is unacknowledged or uncompleted (R259). -/
def LPort.holdsKey (x : LPort) (cls tile : Nat) : Bool :=
  (x.wait.any fun w => decide (w.2.cls = cls) && decide (w.2.tile = tile)) ||
    (sget [] x.stage cls ++ sget [] x.buf (spaceOf cls)).any fun f => decide (f.cls = cls) && decide (f.tile = some tile)
/-- The port a message of a key goes to, R259: the port that still holds something of the key, else by the key's number. -/
def State.keyPort (s : State) (n cls tile : Nat) : Option Nat :=
  let holds := (s.pathPorts n).find? fun p => (s.lport p).holdsKey cls tile
  match holds with
  | some p => some p
  | none =>
    let u := s.usable n
    if u.isEmpty then none else u[(tile + cls) % u.length]?

/-- GRACE_EXPIRY (R260): the path enters FAILED and every held message completes with GRACE_EXPIRED. -/
def execGraceExpiry (n : PathIx) (s : State) : Host.Outcome State Fault Refusal :=
  .next (match (s.lpath n).since with
    | none => s
    | some t =>
      let s := s.toWt (t + (s.lpath n).left)
      let ms := (s.lpath n).q.flatMap fun e => e.2
      let s := s.modPath n fun x => { x with q := [], since := none, left := 0 }
      let s := (s.setFld .PATH_STAT [n] F.PATH_STAT_STATE 3).incSat .PATH_STAT [n] F.PATH_STAT_GEXP_CNT 1
      let s := s.incSat .PATH_STAT [n] F.PATH_STAT_FLUSH_CNT ms.length
      ms.foldl (fun s m => s.complete m 7) s)

/-! ### Flits (R237, R238) -/

/-- A flit: header number, payload, CRC-32C over bytes 0 to 251 (R237). -/
def flitBytes (h : Nat) (pay : Bytes) : Bytes := let b := natLe 12 h ++ padTo pay 240; b ++ natLe 4 (crc32c b).toNat

/-- A DATA flit (Table 10-2). -/
def Flit.bytes (f : Flit) : Bytes :=
  flitBytes (2 ^ 92 + f.cls * 2 ^ 89 + f.seq * 2 ^ 77 + (if f.som then 2 ^ 76 else 0) + (if f.eom then 2 ^ 75 else 0) +
    (if f.sh then 2 ^ 73 else 0) + (f.pay.length - 1) * 2 ^ 65 + f.tenant * 2 ^ 49 + f.msgid * 2 ^ 37) f.pay

/-- Whether a received flit is good: its CRC, and TYPE, RSVD and class (R237). -/
def flitGood (raw : Bytes) (ty : Nat) : Bool :=
  let h := leNat (slice raw 0 12)
  decide (raw.length = 256) && decide (leNat (slice raw 252 4) = (crc32c (slice raw 0 252)).toNat) && decide (bits h 95 92 = ty) &&
    decide (bits h 36 0 = 0) && decide (bits h 91 89 ≠ 7) && decide (bits h 72 65 ≤ 239)

/-- The CTRL flit a port sends now (Table 10-3): acknowledgements, replay requests, command, credit returns, units in use. -/
def LPort.ctrlBytes (x : LPort) (cmd arg : Nat) : Bytes :=
  let ack := fun sp => natLe 2 (0x8000 + (sget 0 x.exp sp + 4095) % 4096)
  let rpl := (x.rplDue.map fun sp => 2 ^ sp).foldl (· + ·) 0
  flitBytes (2 * 2 ^ 92) (ack 0 ++ ack 1 ++ ack 2 ++ [BitVec.ofNat 8 rpl, BitVec.ofNat 8 cmd, BitVec.ofNat 8 arg, 0] ++
    (List.range 8).flatMap (fun c => natLe 2 (sget 0 x.ret c)) ++ natLe 2 (sget 0 x.ret 8) ++
    (List.range 8).flatMap (fun c => natLe 2 (sget 0 x.use c)) ++ natLe 2 (sget 0 x.use 8))

/-- A flit leaves a port. -/
def State.emit (s : State) (p : Nat) (raw : Bytes) : State := { s with out := s.out ++ [.flit p raw] }

/-- A CTRL flit sent: it answers every call for one (R238, R242, R246). -/
def State.sendCtrl (s : State) (p : Nat) : State :=
  let x := s.lport p
  let c := x.cmd.getD (0, 0)
  (s.emit p (x.ctrlBytes c.1 c.2)).modPort p fun x =>
    { x with rplDue := [], ret := [], acks := 0, ackAt := none, ctrl := false, cmd := none, lastCtrl := s.wt }

/-! ### Messages into flits (R259, R261) -/

/-- The flits of a message with the MSGID it was allotted; a completion or a message of the port itself has no requesting tile. -/
def Msg.flits (m : Msg) (id : Nat) (key : Option Nat) : List Flit :=
  let b := natLe 8 m.w0.toNat ++ natLe 8 m.w1.toNat ++ m.data
  let cs := chunks 240 (b.length / 240 + 1) b
  (List.range cs.length).map fun i =>
    ⟨m.cls, 0, decide (i = 0), decide (i + 1 = cs.length), false, m.tenant, id, cs.getD i [], key⟩

/-- The TX declaration of a path for class C3 or C4 (R302). -/
def State.txDecl (s : State) (n cls : Nat) : Decl :=
  declOf (if cls = 3 then s.app .PACK_CFG [n] F.PACK_CFG_TX3 else if cls = 4 then s.app .PACK_CFG [n] F.PACK_CFG_TX4 else 0)
/-- The RX declaration byte of a path for a class; other classes have none (R302). -/
def State.rxByte (s : State) (n cls : Nat) : Nat :=
  if cls = 3 then s.app .PACK_CFG [n] F.PACK_CFG_RX3 else if cls = 4 then s.app .PACK_CFG [n] F.PACK_CFG_RX4 else 0

/-- NBYTES set in the second header word (Table 10-8). -/
def withNBytes (w1 : W64) (n : Nat) : W64 := BitVec.ofNat 64 (w1.toNat % 2 ^ 40 + n % 2 ^ 24 * 2 ^ 40)

/-- A message as it is sent on a path: packed where its class and kind are declared so (R302 to R308), with the source hub's counts; or
refused with BADREQ, a block that fails its check being counted in FMT_CNT (R303). -/
def State.packMsg (s : State) (n : Nat) (m : Msg) : Option Msg × State :=
  let d := s.txDecl n m.cls
  if m.pack && d.en then
    match packLines d m.data with
    | .ok data b nf _ =>
      let s := (s.incWrap .PACK_CNT [m.hub] F.PACK_CNT_BLK_TX b).incSat .PACK_CNT [m.hub] F.PACK_CNT_NONFIN_CNT nf
      (some { m with data := data, w1 := withNBytes m.w1 data.length }, s)
    | .notWhole => (none, s)
    | .badBlock => (none, s.incSat .PACK_CNT [m.hub] F.PACK_CNT_FMT_CNT 1)
  else (some m, s)

/-- The landed lines of a message on a path (R305). -/
def State.landLines (s : State) (n : Nat) (m : Msg) : Nat :=
  let d := s.txDecl n m.cls
  if m.pack && d.en then
    match packLines d m.data with
    | .ok _ _ _ l => l
    | _ => m.data.length / 64
  else m.data.length / 64

/-- A MSGID not in use (R261). -/
def LPort.newId (x : LPort) : Option Nat :=
  if 4096 ≤ x.wait.length then none
  else ((List.range 4096).map fun i => (x.nextId + i) % 4096).find? fun i => !x.wait.any fun w => decide (w.1 = i)

/-- A message's flits put into a class's staging, its MSGID kept while a completion is awaited. -/
def State.stageMsg (s : State) (p : Nat) (m : Msg) (waits : Bool) : State :=
  match (s.lport p).newId with
  | none => s
  | some id =>
    s.modPort p fun x => { x with
      stage := sput [] x.stage m.cls (m.flits id (if waits then some m.tile else none)), nextId := (id + 1) % 4096
      wait := if waits then x.wait ++ [(id, { m with data := [] })] else x.wait }

/-- A CMPL message of up to 14 records (R263). -/
def cmplMsg (cls : Nat) (l : List (Nat × Nat × Nat)) : Msg :=
  let r := l.take 14
  ⟨cls, BitVec.ofNat 64 (6 * 2 ^ 60), withNBytes 0 (16 * r.length),
    r.flatMap fun e => natLe 16 (e.1 * 2 ^ 52 + e.2.1 * 2 ^ 44 + e.2.2 % 2 ^ 24 * 2 ^ 20), false, false, 0, 0, none, 0, none⟩

/-- The message a class of a port would send next put into its staging: completions, the port's own, then the head of its path's queue
if that goes to this port and no credit is owed; in DRAIN completions only (R253, R259, R267). A message that packing refuses
completes with BADREQ (R303). With no MSGID free, every message waits (R261). -/
def State.feed (s : State) (p cls : Nat) : State :=
  let x := s.lport p
  if !(sget [] x.stage cls).isEmpty || x.newId.isNone then s
  else match sget [] x.cmpls cls with
    | c :: cs =>
      (s.stageMsg p (cmplMsg cls (c :: cs)) false).modPort p fun x => { x with cmpls := sput [] x.cmpls cls ((c :: cs).drop 14) }
    | [] =>
      match sget [] x.own cls with
      | m :: ms => (s.stageMsg p m false).modPort p fun x => { x with own := sput [] x.own cls ms }
      | [] =>
        match s.pathOf p with
        | none => s
        | some n =>
          match sget [] (s.lpath n).q cls with
          | [] => s
          | m :: ms =>
            if !m.credit && decide (s.keyPort n cls m.tile = some p) && decide (s.portState p = 2) && (s.usable n).contains p then
              let r := s.packMsg n m
              let s := r.2.modPath n fun y => { y with q := sput [] y.q cls ms }
              match r.1 with
              | some m => s.stageMsg p m true
              | none => (s.hubCount m.hub 8).complete m 8
            else s

/-- Whether a class has a credit for one flit, and whether it is the shared one (R241). -/
def LPort.credit (x : LPort) (cls : Nat) : Option Bool :=
  if 0 < sget 0 x.cred cls then some false else if decide (2 ≤ cls) && decide (0 < sget 0 x.cred 8) then some true else none

/-- The time stamps written as a C1 flit of a timebase exchange departs (R270): t1 of a request, t3 of a response; zero stamps in a
replay. -/
def stamped (wt : Nat) (replay : Bool) (f : Flit) : Flit :=
  if decide (f.cls = 1) && f.som && decide ((byteAt f.pay 7).toNat / 16 = 7) then
    let t := natLe 9 wt
    let b := f.pay
    let p := if replay then slice b 0 20 ++ List.replicate 27 0 ++ slice b 47 193
      else if byteAt b 47 = 1 then slice b 0 20 ++ t ++ slice b 29 211
      else slice b 0 38 ++ t ++ slice b 47 193
    { f with pay := p }
  else f

/-- A DATA flit of 256 B of class C2 to C6 metered to a polder: `base` 5 sent, 10 received (Table 14-11). -/
def State.meterFlit (s : State) (d : Option Nat) (cls base : Nat) : State :=
  match d with
  | some d => if decide (2 ≤ cls) && decide (cls ≤ 6) then s.meterAdd d (base + cls - 2) 256 else s
  | none => s

/-- The first flit of a class's staging sent, if it has its credit and room in its replay buffer (R239, R241, R244, R245); a port that trained
to another peer sends only C0 (R258). -/
def State.sendData (s : State) (p cls : Nat) : Option State :=
  let sp := spaceOf cls
  let x := s.lport p
  if decide (bufCap sp ≤ (sget [] x.buf sp).length) || decide (sget 0 x.togo sp ≠ 0) || (decide (cls ≠ 0) && s.peerMm p) then none
  else match x.credit cls with
    | none => none
    | some sh =>
      let s := s.feed p cls
      match sget [] (s.lport p).stage cls with
      | [] => none
      | f :: fs =>
        let x := s.lport p
        let f := { f with sh := sh, seq := sget 0 x.seq sp }
        let pool := if sh then 8 else cls
        let b := sget [] x.buf sp
        let x := { x with
          stage := sput [] x.stage cls fs, seq := sput 0 x.seq sp ((f.seq + 1) % 4096), buf := sput [] x.buf sp (b ++ [f])
          cred := sput 0 x.cred pool (sget 0 x.cred pool - 1)
          timer := if b.isEmpty then sput none x.timer sp (some s.wt) else x.timer }
        let d := ((x.wait.find? fun e => e.1 = f.msgid).bind fun e => e.2.polder)
        some (((s.modPort p fun _ => x).emit p (stamped s.wt false f).bytes).meterFlit d cls 5)

/-! ### Port states (R249 to R257) -/

/-- A fault report about a port, with one of its registers as DETAIL (R396). -/
def State.portReport (s : State) (p code : Nat) (detail : W64) : State :=
  s.sendReport (s.mkReport (1152 + p) (0x60 + (Config.faultCode code).toNat) (0x2000 + p) culNone (natLe 8 detail.toNat))

/-- A port retired, R257: it leaves its path, sets RET and reports; Terern lists it in flash. -/
def State.retire (s : State) (p : Nat) : State :=
  let s := (s.setPortState p 6).setFld .PORT_ERR [p] F.PORT_ERR_RET 1
  let s := { s with retired := if s.retired.contains p then s.retired else s.retired ++ [p] }
  (s.portReport p 2 (s.reg .PORT_STAT [p])).pathsLook

/-- The window of a port starts anew without an evaluation, as at any change of state (R249). -/
def LPort.newWindow (x : LPort) (wt : Nat) : LPort := { x with rpl := 0, crce := 0, fecu := 0, top := [], winAt := wt }

/-- 24 h in units of wt. -/
def dayWt : Nat := nsWt 86400000000000

/-- A DOWN event counted over 24 h; the fourth retires the port (R257). -/
def State.countDown (s : State) (p cause : Nat) : State :=
  let ds := s.wt :: (s.lport p).downs.filter fun t => decide (s.wt < t + dayWt)
  let s := s.modPort p fun x => { x with downs := ds }
  let s := (s.setFld .PORT_STAT [p] F.PORT_STAT_DOWNS24 ds.length).setFld .PORT_ERR [p] F.PORT_ERR_CAUSE cause
  let s := (s.setFld .PORT_ERR [p] F.PORT_ERR_DOWN 1).setPortState p 4
  if 4 ≤ ds.length then s.retire p else s.pathsLook

/-- An arriving message as a port that goes down leaves it: one without its EOM is abandoned, the others want no completion (R251). -/
def RxMsg.orphan (m : RxMsg) : Option RxMsg := if m.eom then some { m with mute := true } else none

/-- The block positions that abandoned SLOT messages had taken, given back (R197, R251). -/
def Hub.giveBack (b : Hub) (ms : List RxMsg) : Hub :=
  ms.foldl (fun b m =>
    if m.begun && !m.eom && decide (m.w0.toNat / 2 ^ 60 = 3) then
      { b with ent := b.ent.map fun e =>
          if e.1 = 128 + bits m.w0.toNat 59 54 then
            (e.1, e.2.map fun x => { x with fill := x.fill.map fun f =>
              { f with pos := f.pos.filter fun q => decide (q.1 + 1 ≠ m.blk) || f.done.contains q.1 } })
          else e }
    else b) b

/-- The bounds of the baton contexts of a port's hub go on with the time they had left as it was HELD (R252, R279). -/
def State.heldShift (s : State) (p : Nat) : State :=
  match (s.lport p).held with
  | some (_, t) =>
    let hub := sget Hub.init s.hubs p
    { s with hubs := sput Hub.init s.hubs p { hub with recv := hub.recv.map fun e => (e.1, e.2.map fun c => { c with last := c.last + (s.wt - t) }) } }
  | none => s

/-- Everything a port held for sending is lost: messages awaiting completion complete with PORT_DOWN, arrived ones want none (R251). -/
def State.portLose (s : State) (p : Nat) : State :=
  let ms := (s.lport p).wait.map Prod.snd
  let s := s.heldShift p
  let hub := (sget Hub.init s.hubs p).giveBack ((s.lport p).rx.flatMap Prod.snd)
  let s := { s with hubs := sput Hub.init s.hubs p hub }
  let s := s.modPort p fun x => { (LPort.init.newWindow s.wt) with
    rx := (x.rx.map fun e => (e.1, e.2.filterMap RxMsg.orphan)).filter fun e => !e.2.isEmpty
    downs := x.downs, lane := x.lane }
  ms.foldl (fun s m => s.complete m 6) (s.incSat .PORT_STAT [p] F.PORT_STAT_PDN_CNT ms.length)

/-- A port goes DOWN (R250, R251); an end that goes down for its own reasons sends CMD 1 for 1 µs. -/
def State.portDown (s : State) (p cause : Nat) (own : Bool) : State :=
  ((s.portLose p).modPort p fun x => { x with cmdTill := if own then s.wt + nsWt 1000 else s.wt }).countDown p cause

/-- Whether a port carries flits: UP, DRAIN or HELD. -/
def State.carries (s : State) (p : Nat) : Bool := decide (2 ≤ s.portState p) && decide (s.portState p ≠ 4) && decide (s.portState p ≤ 5)
/-- Whether a port's timers run: UP or DRAIN. -/
def State.portRuns (s : State) (p : Nat) : Bool := decide (s.portState p = 2) || decide (s.portState p = 3)

/-- A port held, R252. -/
def State.holdPort (s : State) (p : Nat) : State :=
  if s.portRuns p then
    ((s.modPort p fun x => { x with held := some (s.portState p, s.wt) }).setPortState p 5).pathsLook
  else s

/-- A HELD port returns to the state it held before, its timers with the time they had left, unless its own device is frozen (R252). -/
def State.leaveHeld (s : State) (p : Nat) : State :=
  if decide (s.portState p = 5) && !s.isFrozen then
    match (s.lport p).held with
    | some (st, t) =>
      let d := s.wt - t
      let s := (s.heldShift p).modPort p fun x => { x with
        held := none, winAt := x.winAt + d, timer := x.timer.map fun e => (e.1, e.2.map (· + d))
        ackAt := x.ackAt.map (· + d), arqAt := x.arqAt.map (· + d) }
      (s.setPortState p st).pathsLook
    | none => s
  else s

/-- Whether the end with the higher device ID is this one: it follows where both ends start (R255). -/
def State.follows (s : State) (p : Nat) : Bool := decide ((s.reg .PORT_PEER [p]).toNat < Config.deviceId.toNat)

/-- A port starts training (R253): a fast attempt, led by the lower device ID where both ends start (R255). -/
def State.startAttempt (s : State) (p : Nat) (counts both : Bool) : State :=
  let s := if counts then (s.incSat .PORT_CNT [p] F.PORT_CNT_RETRAINS 1).lifeAdd (0x50 + p) 1 else s
  let follow := both && s.follows p
  ((s.modPort p fun x => { (x.newWindow s.wt) with attempt := some s.wt, full := !counts, follow := follow }).setPortState p 1).pathsLook

/-- Training frames met while this end is itself in an attempt: the end of the higher device ID abandons its own attempt and follows that of
the other, which counts as one (R255). -/
def State.meetAttempt (s : State) (p : Nat) : State :=
  if s.follows p && !(s.lport p).follow then s.modPort p fun x => { x with attempt := some s.wt, full := false, follow := true } else s

/-- A planned retrain: the port drains, sending a command if it starts the retrain itself (R253, R256). A HELD port drains once it leaves
HELD; its CTRL flits carry the command meanwhile (R252). -/
def State.drainPort (s : State) (p : Nat) (cmd : Option (Nat × Nat)) : State :=
  let ask := fun x : LPort => { x with cmd := cmd.orElse fun _ => x.cmd }
  if s.portState p = 2 then ((s.modPort p fun x => ask (x.newWindow s.wt)).setPortState p 3).pathsLook
  else if s.portState p = 5 then s.modPort p fun x => ask { x with held := x.held.map fun h => (3, h.2) }
  else s

/-! ### Receiving (R240 to R246) -/

/-- Pool units of a class freed, their credits to be returned (R240, R242). -/
def LPort.freeUnits (x : LPort) (cls : Nat) (us : List Bool) : LPort :=
  us.foldl (fun x sh =>
    let k := if sh then 8 else cls
    { x with use := sput 0 x.use k (sget 0 x.use k - 1), ret := sput 0 x.ret k (sget 0 x.ret k + 1) }) x

/-- The data of an accepted flit joined to its message (R261), which keeps the declaration it came under (R314); a later flit under another
tag taints it (R18). -/
def LPort.rxAdd (x : LPort) (cls tenant msgid : Nat) (som eom sh : Bool) (decl : Option (Nat × Nat)) (pay : Bytes) : LPort :=
  let l := sget [] x.rx cls
  if som then
    let m : RxMsg := ⟨BitVec.ofNat 64 (leNat (slice pay 0 8)), BitVec.ofNat 64 (leNat (slice pay 8 8)), tenant, msgid, pay.drop 16, [sh],
      eom, false, 0, 0, none, false, false, 0, false, decl⟩
    { x with rx := sput [] x.rx cls (l ++ [m]) }
  else
    match l.getLast? with
    | some m =>
      if m.eom then x.freeUnits cls [sh]
      else
        let m := { m with buf := m.buf ++ pay, units := m.units ++ [sh], eom := eom, mixed := m.mixed || decide (tenant ≠ m.tenant) }
        { x with rx := sput [] x.rx cls (l.dropLast ++ [m]) }
    | none => x.freeUnits cls [sh]

/-- Attached tile `a` of a hub (R17, R277). -/
def attached (h a : Nat) : Nat := if h < 8 then 6 * h + a else if h < 16 then 23 * 48 + 6 * (h - 8) + a else (9 + a) * 48

/-- A DATA flit of a good CRC classified by d (R245). What a port that trained to another peer accepts of other classes than C0 goes nowhere
(R258); a HELD end declares nothing down (R252). -/
def State.takeFlit (s : State) (p : Nat) (raw : Bytes) : State :=
  let h := leNat (slice raw 0 12)
  let cls := bits h 91 89; let sp := spaceOf cls
  let x := s.lport p
  let e := sget 0 x.exp sp
  let d := (bits h 88 77 + 4096 - e) % 4096
  let arq := bit h 74
  let s := if arq then s.modPort p fun x => { x with ctrl := true } else s
  if d = 0 then
    let own := (List.range 6).findSome? fun a =>
      (s.tilePolder (attached p a)).bind fun d => if s.tenant d = bits h 64 49 then some d else none
    let decl := (s.pathOf p).map fun n => (n, s.rxByte n cls)
    (s.meterFlit own cls 10).modPort p fun x =>
      let k := if bit h 73 then 8 else cls
      let x := { x with
        exp := sput 0 x.exp sp ((e + 1) % 4096), gap := sput none x.gap sp none, fec := x.fec.filter (· ≠ sp), acks := x.acks + 1
        ackAt := x.ackAt.orElse fun _ => some s.wt, ctrl := x.ctrl || decide (16 ≤ x.acks + 1)
        use := sput 0 x.use k (sget 0 x.use k + 1) }
      if decide (cls ≠ 0) && s.peerMm p then x.freeUnits cls [bit h 73]
      else x.rxAdd cls (bits h 64 49) (bits h 48 37) (bit h 76) (bit h 75) (bit h 73) decl (slice raw 12 (bits h 72 65 + 1))
  else if d < 2048 then
    if sget none x.gap sp = some e then s
    else
      let s := s.modPort p fun x => { x with gap := sput none x.gap sp (some e), rplDue := if x.rplDue.contains sp then x.rplDue else sp :: x.rplDue }
      if decide (sp ≠ 0) && x.fec.contains sp && decide (s.portState p ≠ 5) then (s.setFld .PORT_ERR [p] F.PORT_ERR_GAP 1).portDown p 2 true else s
  else (s.incSat .PORT_CNT [p] F.PORT_CNT_DUP_CNT 1).modPort p fun x => { x with ctrl := true }

/-- A flit discarded for its CRC or header (R237). -/
def State.badFlit (s : State) (p : Nat) : State :=
  (s.setFld .PORT_ERR [p] F.PORT_ERR_CRC 1).modPort p fun x => { x with crce := x.crce + 1 }

/-- An acknowledgement of a space, applied if it lies within the unacknowledged range (R246). -/
def LPort.ack (x : LPort) (wt sp a : Nat) : LPort :=
  let b := sget [] x.buf sp
  match b.findIdx? fun f => decide (f.seq = a) with
  | none => x
  | some i =>
    let r := b.drop (i + 1)
    { x with
      buf := sput [] x.buf sp r, togo := sput 0 x.togo sp (min (sget 0 x.togo sp) r.length)
      timer := sput none x.timer sp (if r.isEmpty then none else some wt), arqAt := if sp = 0 then none else x.arqAt }

/-- A credit sample of a pool: the largest of the window is kept (R243). -/
def LPort.sample (x : LPort) (k inuse : Nat) : LPort :=
  let v := sget 0 x.cred k + inuse
  { x with top := sput none x.top k (some (match sget none x.top k with | some m => max m v | none => v)) }

/-- The acknowledgements, credit returns, samples and replay requests of a CTRL flit (R241 to R246). -/
def LPort.takeCtrl (x : LPort) (wt : Nat) (held : Bool) (raw : Bytes) : LPort :=
  let f := fun i n => leNat (slice raw i n)
  let x := [0, 1, 2].foldl (fun x sp => let a := f (12 + 2 * sp) 2; if bit a 15 then x.ack wt sp (a % 4096) else x) x
  let x := (List.range 9).foldl (fun x k =>
    { x with cred := sput 0 x.cred k (min (sget 0 x.cred k + f (22 + 2 * k) 2) (if k = 8 then 6144 else 256)) }) x
  let x := if held then x else ([0, 1, 2, 3, 4, 5, 6, 8] : List Nat).foldl (fun x k => x.sample k (f (40 + 2 * k) 2)) x
  [0, 1, 2].foldl (fun x sp => if bit (f 18 1) sp then { x with togo := sput 0 x.togo sp (sget [] x.buf sp).length } else x) x

/-- A command of a CTRL flit (R250, R253, R255, R256): 1 DOWN, 2 RETRAIN, 3 WIDTH. -/
def State.ctrlCmd (s : State) (p cmd arg : Nat) : State :=
  match cmd with
  | 1 => if s.carries p then s.portDown p 3 false else s
  | 2 => s.drainPort p none
  | 3 => (s.modPort p fun x => { x with wantLanes := some arg }).drainPort p none
  | _ => s

end Sys2Proof.Machine
end

