-- ==== Sys2Proof/Machine/Link.lean ====
section
/-! DEFINITION. The commands of the Afrel ports (R235 to R260, R270): flit slots, arriving flits, timers, windows, training, time. -/
namespace Sys2Proof.Machine

/-- The classes in the order the sender tries them (R239): C1, C0, then C2 to C6 from the one after the class sent last. -/
def LPort.order (x : LPort) : List Nat := [1, 0] ++ (List.range 5).map fun i => 2 + (x.rr + i) % 5

/-- The first class of a list with a flit ready sends it; an IDLE flit where none is. -/
def State.sendFirst (p : Nat) : List Nat → State → State
  | [], s => s.emit p (flitBytes (3 * 2 ^ 92) [])
  | c :: cs, s =>
    match s.sendData p c with
    | some s' => if 2 ≤ c then s'.modPort p fun x => { x with rr := (c - 1) % 5 } else s'
    | none => State.sendFirst p cs s

/-- A replayed flit of a space: the oldest still to be resent (R245, R247); more than 8,192 replays in a window take the port DOWN (R250). -/
def State.resend (s : State) (p sp : Nat) : State :=
  let x := s.lport p
  let b := sget [] x.buf sp
  match b[b.length - sget 0 x.togo sp]? with
  | none => s
  | some f =>
    let s := (s.modPort p fun x => { x with togo := sput 0 x.togo sp (sget 0 x.togo sp - 1), rpl := x.rpl + 1 }).emit p
      (stamped s.wt true f).bytes
    let s := s.incWrap .PORT_CNT [p] F.PORT_CNT_RPL_TOT 1
    if 8192 < (s.lport p).rpl then s.portDown p 1 true else s

/-- FLIT_SLOT (R239, R248, R250, R252): a due CTRL flit, an ARQ flit of a full main buffer, a replayed flit, a data flit, or IDLE. A
HELD port of a frozen device sends HOLD flits with a CTRL flit every 200 ns; of a device that runs, CTRL flits and IDLE. A port gone
DOWN for its own reasons sends CMD 1 for 1 µs, unless its PHY has lost lock: whether it has is a free value (log 82). -/
def execFlitSlot (p : PortIx) (s : State) : Host.Outcome State Fault Refusal :=
  .next (let x := s.lport p
    let due := x.ctrl || x.cmd.isSome || !x.rplDue.isEmpty
    match s.portState p with
    | 2 | 3 =>
      if due then s.sendCtrl p
      else if decide (1024 ≤ (sget [] x.buf 0).length) && x.arqAt.isNone then
        (s.emit p (flitBytes (2 * 2 ^ 92 + 2 ^ 74) [])).modPort p fun x => { x with arqAt := some s.wt, lastCtrl := s.wt }
      else match [2, 1, 0].find? fun sp => decide (sget 0 x.togo sp ≠ 0) with
        | some sp => s.resend p sp
        | none => State.sendFirst p x.order s
    | 4 =>
      if s.wt < x.cmdTill then
        if (Config.freeValue s.free).toNat % 2 = 1 then s.useFree.emit p (x.ctrlBytes 1 0)
        else s.useFree.modPort p fun x => { x with cmdTill := s.wt }
      else s
    | 5 =>
      if s.isFrozen then
        if due || decide (x.lastCtrl + nsWt 200 ≤ s.wt) then s.sendCtrl p
        else
          let fol := s.fld .FRZ_CFG [] F.FRZ_CFG_PROP
          s.emit p (flitBytes (4 * 2 ^ 92) (natLe 4 (s.fld .FRZ_STAT [] F.FRZ_STAT_NO) ++ [BitVec.ofNat 8 fol]))
      else if due then s.sendCtrl p
      else s.emit p (flitBytes (3 * 2 ^ 92) [])
    | _ => s)

/-- DATA_FLIT (R237, R245, R246, R249, R252, R419): a flit received, after an uncorrectable codeword if `fec`. -/
def execDataFlit (p : PortIx) (raw : Bytes) (fec : Bool) (s : State) : Host.Outcome State Fault Refusal :=
  .next (if s.carries p then
      let good := flitGood raw 1
      let s := if good then s.leaveHeld p else s
      let s := if fec then s.modPort p fun x => { x with fecu := x.fecu + 1, fec := [0, 1, 2] } else s
      if good then s.takeFlit p raw else s.badFlit p
    else s)

/-- CTRL_FLIT (R238, R242, R243, R245, R246): ARQ calls for an answer at once; a flit that fails its CRC is lost with all it carried. -/
def execCtrlFlit (p : PortIx) (raw : Bytes) (s : State) : Host.Outcome State Fault Refusal :=
  .next (if s.carries p then
      if flitGood raw 2 then
        let arq := bit (leNat (slice raw 0 12)) 74
        let s := s.modPort p fun x =>
          let x := x.takeCtrl s.wt (decide (s.portState p = 5)) raw
          if arq then { x with ctrl := true } else x
        s.ctrlCmd p (leNat (slice raw 19 1)) (leNat (slice raw 20 1))
      else s.badFlit p
    else s)

/-- CTRL_DOWN (R250): CMD 1 arrives. -/
def execCtrlDown (p : PortIx) (s : State) : Host.Outcome State Fault Refusal := .next (s.ctrlCmd p 1 0)
/-- CTRL_RETRAIN (R253): CMD 2 arrives. -/
def execCtrlRetrain (p : PortIx) (s : State) : Host.Outcome State Fault Refusal := .next (s.ctrlCmd p 2 0)
/-- CTRL_WIDTH (R256): CMD 3 arrives with the lanes the peer requests. -/
def execCtrlWidth (p : PortIx) (lanes : Nat) (s : State) : Host.Outcome State Fault Refusal := .next (s.ctrlCmd p 3 lanes)

/-- IDLE_FLIT (R252). -/
def execIdleFlit (p : PortIx) (s : State) : Host.Outcome State Fault Refusal := .next (s.leaveHeld p)

/-- HOLD_FLIT (R252, R421): the port is HELD; with FOLLOW on both sides and a FRZNO that is not this device's own, a freeze follows. -/
def execHoldFlit (p : PortIx) (frzno : BitVec 32) (follow : Bool) (s : State) : Host.Outcome State Fault Refusal :=
  .next (if s.carries p then
      let s := s.holdPort p
      if follow && decide (s.fld .FRZ_CFG [] F.FRZ_CFG_FOLLOW = 1) && decide (s.frzState = 0) &&
          decide (frzno.toNat ≠ s.fld .FRZ_STAT [] F.FRZ_STAT_NO) then s.launch 5 (some frzno.toNat)
      else s
    else s)

/-- ACK_TIMER (R246): 200 ns after the oldest accepted flit that has not been acknowledged. -/
def execAckTimer (p : PortIx) (s : State) : Host.Outcome State Fault Refusal :=
  .next (match (s.lport p).ackAt with
    | some t => if s.portRuns p then (s.toWt (t + nsWt 200)).modPort p fun x => { x with ctrl := true } else s
    | none => s)

/-- REPLAY_TIMEOUT (R247): 4 µs without an advance; the space is replayed and its timer restarts. -/
def execReplayTimeout (p : PortIx) (sp : Space) (s : State) : Host.Outcome State Fault Refusal :=
  .next (let k := spaceNo sp
    match sget none (s.lport p).timer k with
    | some t =>
      if s.portRuns p then
        let s := s.toWt (t + nsWt 4000)
        s.modPort p fun x => { x with togo := sput 0 x.togo k (sget [] x.buf k).length, timer := sput none x.timer k (some s.wt) }
      else s
    | none => s)

/-- ARQ_REPEAT (R248): 1 µs after the last ARQ flit with the main buffer still full. -/
def execArqRepeat (p : PortIx) (s : State) : Host.Outcome State Fault Refusal :=
  .next (match (s.lport p).arqAt with
    | some t =>
      if s.portRuns p && decide (1024 ≤ (sget [] (s.lport p).buf 0).length) then
        (s.toWt (t + nsWt 1000)).modPort p fun x => { x with arqAt := none }
      else s
    | none => s)

/-- Credits a pool advertises (R241). -/
def advOf (k : Nat) : Nat := if k = 8 then 6144 else 256

/-- The sampled pool whose largest sample is the smallest share of its ADV. -/
def LPort.worst (x : LPort) : Option (Nat × Nat) :=
  ([0, 1, 2, 3, 4, 5, 6, 8] : List Nat).foldl (fun a k =>
    match sget none x.top k, a with
    | some v, some (j, w) => if v * advOf j < w * advOf k then some (k, v) else a
    | some v, none => some (k, v)
    | none, _ => a) none

/-- WINDOW_END (R243, R249, R250): PORT_WIN shows the window; more than 1,024 replays set DEG, a pool below 75% sets CREDLOW. -/
def execWindowEnd (p : PortIx) (s : State) : Host.Outcome State Fault Refusal :=
  .next (if s.portRuns p then
      let s := s.toWt ((s.lport p).winAt + nsWt 1000000)
      let x := s.lport p
      let w := F.PORT_WIN_RPL.set (F.PORT_WIN_CRCE.set (F.PORT_WIN_FECU.set 0 (min x.fecu 0xFFFF)) (min x.crce 0xFFFF)) (min x.rpl 0xFFFF)
      let s := (s.setReg .PORT_WIN [p] w).modPort p fun x => x.newWindow s.wt
      let deg := decide (1024 < x.rpl)
      let s := s.setFld .PORT_STAT [p] F.PORT_STAT_DEG (if deg then 1 else 0)
      let s := if deg then (s.setFld .PORT_ERR [p] F.PORT_ERR_DEG 1).portReport p 0 w else s
      match x.worst with
      | some (k, v) =>
        if 4 * v < 3 * advOf k then
          let c := F.PORT_CRED_CLS.set (F.PORT_CRED_WMAX.set (F.PORT_CRED_ADV.set 0 (advOf k)) v) k
          let s := (s.setReg .PORT_CRED [p] c).setFld .PORT_STAT [p] F.PORT_STAT_CREDLOW 1
          (s.setFld .PORT_ERR [p] F.PORT_ERR_CREDLOW 1).portReport p 1 c
        else s.setFld .PORT_STAT [p] F.PORT_STAT_CREDLOW 0
      | none => s
    else s)

/-- RETRAIN_ATTEMPT (R253, R255): a port that is DOWN starts a fast retrain once its CMD 1 flits are sent; one that meets the other end's
training frames in its own attempt leads or follows. -/
def execRetrainAttempt (p : PortIx) (both : Bool) (s : State) : Host.Outcome State Fault Refusal :=
  .next (if s.portState p = 4 then (s.toWt (s.lport p).cmdTill).startAttempt p true both
    else if decide (s.portState p = 1) && both then s.meetAttempt p
    else s)

/-- FAST_RETRAIN_FAIL (R253): the attempt goes on as a full retrain. -/
def execFastRetrainFail (p : PortIx) (s : State) : Host.Outcome State Fault Refusal :=
  .next (if s.portState p = 1 then s.modPort p fun x => { x with full := true } else s)

/-- The first lanes of the groups of a width: lanes 0-3 or 4-7, aligned pairs (R235). -/
def laneGroups (l : Nat) : List Nat := (List.range (8 / l)).map (· * l)

/-- Whether the `l` lanes from lane `g` on have trained. -/
def groupTrained (mask : BitVec 8) (l g : Nat) : Bool := (List.range l).all fun i => mask.getLsbD (g + i)

/-- The lanes and the group that a port comes up with: the leader's group at a follower (R255), the stored one in a fast retrain, else the
first group whose lanes train, of the widest width at most `want` that has one (R235, R253, R256). -/
def LPort.pick (x : LPort) (i : TrainInfo) (want : Nat) : Option (Nat × Nat) :=
  let first := if x.follow then i.lead else x.lane
  (([8, 4, 2] : List Nat).filter fun l => decide (l ≤ want)).findSome? fun l =>
    let gs := if x.follow || !x.full then (laneGroups l).filter (fun g => decide (g = first / l * l)) else laneGroups l
    (gs.find? (groupTrained i.trained l)).map fun g => (l, g)

/-- TRAINING_COMPLETE (R235, R241, R244, R252, R254 to R256, R258): the parameters are exchanged, once the receive pool is empty; the port
comes UP, or HELD on a frozen device, with fresh credits and SEQ 0 at the narrowest of the widths asked for and trained. -/
def execTrainingComplete (p : PortIx) (x : TrainInfo) (s : State) : Host.Outcome State Fault Refusal :=
  .next (let own := lanesOf (s.app .PORT_CFG [p] F.PORT_CFG_WIDTH)
    match (s.lport p).pick x (min (min own x.peerLanes) ((s.lport p).wantLanes.getD 8)) with
    | none => s
    | some (l, g) =>
      if decide (s.portState p = 1) && (s.lport p).rx.isEmpty then
        let s := if l < own then s.setFld .PORT_ERR [p] F.PORT_ERR_WREJ 1 else s
        let w := F.PORT_STAT_PEERID.set (s.reg .PORT_STAT [p]) x.peer.toNat
        let w := F.PORT_STAT_WIDTHA.set (F.PORT_STAT_FAILS.set (F.PORT_STAT_STATE.set w 2) 0) (widthOf l)
        let w := F.PORT_STAT_DEG.set (F.PORT_STAT_CREDLOW.set w 0) 0
        let s := (s.setReg .PORT_STAT [p] w).setReg .PORT_PEER [p] x.dev
        let s := s.modPort p fun x => { (LPort.init.newWindow s.wt) with
          downs := x.downs, lane := g, cred := (List.range 9).map fun k => (k, advOf k) }
        let me := s.app .LINK_ID [] F.LINK_ID_PEERID
        let s := { s with out := s.out ++ [Out.training p Config.deviceId me own (advOf 0) (advOf 8)] }
        let s := if s.peerMm p then s.setFld .PORT_ERR [p] F.PORT_ERR_PEERMM 1 else s
        (if s.isFrozen then s.holdPort p else s).pathsLook
      else s)

/-- ATTEMPT_TIMEOUT (R253, R257): an attempt not UP within 600 ms fails; the third in a row retires the port. -/
def execAttemptTimeout (p : PortIx) (s : State) : Host.Outcome State Fault Refusal :=
  .next (match (s.lport p).attempt with
    | some t =>
      if s.portState p = 1 then
        let s := s.toWt (t + nsWt 600000000)
        let f := min 3 (s.fld .PORT_STAT [p] F.PORT_STAT_FAILS + 1)
        let s := (s.setFld .PORT_STAT [p] F.PORT_STAT_FAILS f).modPort p fun x => { x with attempt := none, cmdTill := s.wt }
        let s := s.countDown p 4
        if decide (f = 3) && decide (s.portState p = 4) then s.retire p else s
      else s
    | none => s)

/-- Whether a draining port has nothing left to send, to be acknowledged or to complete (R253). -/
def LPort.drained (x : LPort) : Bool :=
  x.stage.isEmpty && x.buf.isEmpty && x.wait.isEmpty && x.cmpls.isEmpty && x.own.isEmpty && x.rx.isEmpty && x.cmd.isNone && !x.ctrl &&
    decide (x.acks = 0)

/-- DRAIN_COMPLETE (R253): both ends retrain. -/
def execDrainComplete (p : PortIx) (s : State) : Host.Outcome State Fault Refusal :=
  .next (if decide (s.portState p = 3) && (s.lport p).drained then s.startAttempt p true true else s)

/-- PORT_CTL (R250, R253): DOWN and RETRAIN, written by the management core only. -/
def State.wrPortCtl (src : Writer) (p : Nat) (v : W64) (s : State) : State :=
  if isMgmt src then
    let s := if F.PORT_CTL_RETRAIN.get v = 1 then s.drainPort p (some (2, 0)) else s
    if decide (F.PORT_CTL_DOWN.get v = 1) && (s.carries p || decide (s.portState p = 1)) then s.portDown p 5 true else s
  else s

/-- PORT_CTL_RETRAIN. -/
def execPortCtlRetrain (src : Writer) (p : PortIx) (s : State) : Host.Outcome State Fault Refusal :=
  .next (s.chipBy src (State.wrPortCtl src p 2))

/-- PORT_CTL_DOWN. -/
def execPortCtlDown (src : Writer) (p : PortIx) (s : State) : Host.Outcome State Fault Refusal :=
  .next (s.chipBy src (State.wrPortCtl src p 1))

/-! ### Time exchanges (R230, R270) -/

/-- A time message: exchange number, stamps, KIND (R270). -/
def timeMsg (no t1 t2 t3 kind : Nat) : Msg :=
  ⟨1, BitVec.ofNat 64 (7 * 2 ^ 60), withNBytes 0 224,
    natLe 4 no ++ natLe 9 t1 ++ natLe 9 t2 ++ natLe 9 t3 ++ natLe 1 kind ++ List.replicate 192 0, false, false, 0, 0, none, 0, none⟩

/-- TIMEBASE_EXCHANGE (R230): a request on the path of TB_CTL.UPATH; t1 is written as it departs. -/
def execTimebaseExchange (s : State) : Host.Outcome State Fault Refusal :=
  .next (let u := s.usable (s.fld .TB_CTL [] F.TB_CTL_UPATH)
    match u[1 % u.length]? with
    | none => s
    | some p =>
      let no := s.timeNo % 2 ^ 32
      { s.modPort p fun x => { x with own := sput [] x.own 1 (sget [] x.own 1 ++ [timeMsg no 0 0 0 1]) } with
        timeNo := no + 1, timeReq := some (no, p, 0) })

/-- A timebase exchange completed: offset and delay by R230, which steer the timebase where the C1 peer is its source (R231). -/
def State.timeResult (s : State) (p t1 t2 t3 t4 : Nat) : State :=
  let asym : Int := let a := s.fld .TB_ASYM [p] F.TB_ASYM_ASYM; if a < 2 ^ 15 then a else (a : Int) - 2 ^ 16
  let off : Int := (((t2 : Int) - t1) - ((t4 : Int) - t3)) / 2 - asym
  let delay : Int := (((t4 : Int) - t1) - ((t3 : Int) - t2)) / 2
  let src := s.fld .TB_CTL [] F.TB_CTL_SRC
  if decide (src = 2) || (decide (src = 0) && decide (s.tbSrc ≠ 1)) then s.steer off (delay / 256).toNat 2 else s

/-- The message at the front of a class of a port taken off, its units freed. -/
def State.dropRx (s : State) (p cls : Nat) : State :=
  s.modPort p fun x =>
    match sget [] x.rx cls with
    | [] => x
    | m :: ms => { x.freeUnits cls m.units with rx := sput [] x.rx cls ms }

/-- TIME_MESSAGE (R230, R270): received at wt `rx`; a request is answered, a response yields offset and delay; an exchange with a zero
stamp is discarded. -/
def execTimeMessage (p : PortIx) (rx : Nat) (s : State) : Host.Outcome State Fault Refusal :=
  .next (match sget [] (s.lport p).rx 1 with
    | [] => s
    | m :: _ =>
      if decide (m.w0.toNat / 2 ^ 60 = 7) && m.eom then
        let f := fun i n => leNat (slice m.buf i n)
        let no := f 0 4; let t1 := f 4 9; let t2 := f 13 9; let t3 := f 22 9
        let s := s.dropRx p 1
        if t1 = 0 then s
        else if f 31 1 = 1 then
          s.modPort p fun x => { x with own := sput [] x.own 1 (sget [] x.own 1 ++ [timeMsg no t1 rx 0 2]) }
        else if decide (t2 ≠ 0) && decide (t3 ≠ 0) && decide (rx ≠ 0) &&
            (match s.timeReq with | some (n, q, _) => decide (n = no) && decide (q = p.val) | none => false) then
          { s with timeReq := none }.timeResult p t1 t2 t3 rx
        else s
      else s)

end Sys2Proof.Machine
end

