-- ==== Sys2Proof/Machine/Hub.lean ====
section
/-! DEFINITION. Hubs (R261 to R270, R196, R197, R302 to R313): requests of the tiles, entries, arriving messages, completions. -/
namespace Sys2Proof.Machine

/-! ### Hubs and their requests -/

/-- A hub; 16 is the host hub. -/
def State.hub (s : State) (h : Nat) : Hub := sget Hub.init s.hubs h
/-- A hub changed. -/
def State.modHub (s : State) (h : Nat) (f : Hub → Hub) : State := { s with hubs := sput Hub.init s.hubs h (f (s.hub h)) }

/-- HOP of a request (Table 10-9). -/
def HubReq.hop (q : HubReq) : Nat := bits q.w0.toNat 27 24
/-- The gauge its completion adds to. -/
def HubReq.cg (q : HubReq) : Option Nat := if bit q.w0.toNat 23 then some (bits q.w0.toNat 22 19) else none
/-- CLASS. -/
def HubReq.cls (q : HubReq) : Nat := bits q.w0.toNat 18 16
/-- ENTRY. -/
def HubReq.entry (q : HubReq) : Nat := bits q.w0.toNat 15 10
/-- SGEN. -/
def HubReq.sgen (q : HubReq) : Nat := bits q.w0.toNat 9 2
/-- ATILE. -/
def HubReq.atile (q : HubReq) : Nat := bits q.w1.toNat 63 61
/-- PATH. -/
def HubReq.path (q : HubReq) : Nat := bits q.w1.toNat 60 56
/-- SLINE. -/
def HubReq.sline (q : HubReq) : Nat := bits q.w1.toNat 55 40
/-- CNT. -/
def HubReq.cnt (q : HubReq) : Nat := bits q.w1.toNat 39 24
/-- AUX. -/
def HubReq.aux (q : HubReq) : Nat := bits q.w1.toNat 23 8
/-- RANK. -/
def HubReq.rank (q : HubReq) : Nat := bits q.w1.toNat 7 0

/-- Whether a field of a request is outside its range (R262). -/
def HubReq.inRange (q : HubReq) : Bool :=
  decide (bits q.w0.toNat 1 0 = 0) && decide (q.atile ≤ 5) &&
    match q.hop with
    | 1 | 2 | 3 => decide (q.sline + q.cnt ≤ 65535)
    | 4 => decide (q.sgen < 16) && decide (q.aux < 1152)
    | 5 => true
    | 6 | 7 => decide (q.aux < 4)
    | 8 => decide (q.sline + 7 ≤ 65535) && decide (q.rank < 16)
    | 9 => decide (q.sline + q.cnt ≤ 65535) && decide (q.rank < 16)
    | 10 => decide (q.aux < 2) && decide (q.rank < 16)
    | _ => false

/-- The checks of R262 on a request to a link hub. -/
def State.reqOk (s : State) (h : Nat) (q : HubReq) : Bool :=
  q.inRange && decide (2 ≤ q.cls) && decide (q.cls ≤ 6) &&
    match q.polder with
    | none => false
    | some d =>
      decide (s.tilePolder (attached h q.atile) = some d) && decide (s.app .PATH_CFG [q.path] F.PATH_CFG_EN = 1) &&
        bit (s.app .PATH_CFG [q.path] F.PATH_CFG_POLDERS) d

/-- A request completed at the hub, counted there (R263). -/
def State.reqDone (s : State) (h : Nat) (q : HubReq) (status : Nat) : State :=
  (s.hubCount h status).tell h q.tile q.tenant q.cg status

/-- The request at the front of a link hub's queue, if its HOP is the one named or is undefined; a frozen device's hubs rest (R419). -/
def State.takeReq (s : State) (h : Nat) (hop : Nat) (k : HubReq → State → State) : State :=
  if s.isFrozen || decide (16 ≤ h) then s
  else match (s.hub h).reqs with
    | [] => s
    | q :: qs =>
      let bad := decide (q.hop = 0) || decide (11 < q.hop) || decide (q.hop = 11)
      if decide (q.hop = hop) || bad then
        let s := s.modHub h fun x => { x with reqs := qs }
        if bad || !s.reqOk h q then s.reqDone h q 8 else k q s
      else s

/-- The message of a request (Table 10-8). -/
def State.reqMsg (s : State) (h : Nat) (q : HubReq) (op sgen rank aux amount : Nat) (data : Bytes) (pack credit : Bool) : Msg :=
  let d := q.polder.getD 0
  let me := s.app .LINK_ID [] F.LINK_ID_PEERID
  let src := ((List.range 256).find? fun i =>
    decide (s.app .PEERTAB [d, i] F.PEERTAB_V = 1) && decide (s.app .PEERTAB [d, i] F.PEERTAB_PEERID = me)).getD 0
  ⟨q.cls, BitVec.ofNat 64 (op * 2 ^ 60 + q.entry * 2 ^ 54 + sgen * 2 ^ 46 + rank * 2 ^ 38 + aux * 2 ^ 22 + amount * 2 ^ 6),
    withNBytes (BitVec.ofNat 64 (src * 2 ^ 32)) data.length, data, pack && (decide (q.cls = 3) || decide (q.cls = 4)), credit, q.tile, h,
    q.cg, q.tenant, q.polder⟩

/-- The source lines of a request read from its attached tile by the hub (unit 0x6, R261); a failed check sends nothing and aborts the
segment of that tile (Table 2-3). -/
def State.reqLines (s : State) (h : Nat) (q : HubReq) (n : Nat) (k : Bytes → State → State) : State :=
  let t := attached h q.atile
  match s.freeLoad t (64 * q.sline) (64 * n) 6 n with
  | .ok b s => k b s
  | .crc s => s.abortSeg t
  | .live s => s

/-- A data request submitted to its path; lines that packing refuses complete with BADREQ (R303). -/
def State.sendReq (s : State) (q : HubReq) (m : Msg) : State :=
  let d := s.txDecl q.path m.cls
  if m.pack && d.en then
    match packLines d m.data with
    | .ok _ _ _ _ => s.submit q.path m
    | .notWhole => s.reqDone m.hub q 8
    | .badBlock => (s.incSat .PACK_CNT [m.hub] F.PACK_CNT_FMT_CNT 1).reqDone m.hub q 8
  else s.submit q.path m

/-- SRING (R262, R267, R303): ring data queued; it waits for its credit. -/
def execSring (h : HubIx) (s : State) : Host.Outcome State Fault Refusal :=
  .next (s.takeReq h 1 fun q s => s.reqLines h q (q.cnt + 1) fun b s => s.sendReq q (s.reqMsg h q 1 0 0 0 0 b true true))

/-- The credit counter of a path and destination entry (R267). -/
def creditKey (n e : Nat) : Nat := n * 64 + e

/-- SRING_SEND (R267, R305): the SRING at the head of its path's queue for its class deducts its landed lines once the counter
suffices. -/
def execSringSend (n : PathIx) (cls : ClassIx) (s : State) : Host.Outcome State Fault Refusal :=
  .next (if s.isFrozen then s else
    match sget [] (s.lpath n).q cls with
    | [] => s
    | m :: ms =>
      let l := s.landLines n m
      let k := creditKey n (bits m.w0.toNat 59 54)
      let c := sget 0 s.credits k
      if m.credit && decide (l ≤ c) then
        { s with credits := sput 0 s.credits k (c - l) }.modPath n fun x => { x with q := sput [] x.q cls ({ m with credit := false } :: ms) }
      else s)

/-- SSLUICE (R262, R268, R303). -/
def execSsluice (h : HubIx) (s : State) : Host.Outcome State Fault Refusal :=
  .next (s.takeReq h 2 fun q s => s.reqLines h q (q.cnt + 1) fun b s =>
    s.sendReq q (s.reqMsg h q 2 q.sgen 0 q.aux 0 b true false))

/-- SSLOT (R196, R262): one slot block. -/
def execSslot (h : HubIx) (s : State) : Host.Outcome State Fault Refusal :=
  .next (s.takeReq h 3 fun q s => s.reqLines h q (q.cnt + 1) fun b s =>
    s.submit q.path (s.reqMsg h q 3 0 q.rank q.aux 0 b false false))

/-- RGADD_REQUEST (R262, R269). -/
def execRgaddRequest (h : HubIx) (s : State) : Host.Outcome State Fault Refusal :=
  .next (s.takeReq h 4 fun q s => s.submit q.path (s.reqMsg h q 4 q.sgen 0 q.aux q.cnt [] false false))

/-! ### Entries (R265, R277) -/

/-- The key of an entry of a kind. -/
def entKey (kind e : Nat) : Nat := 64 * kind + e
/-- An enabled entry. -/
def State.entry (s : State) (h kind e : Nat) : Option Entry := sget none (s.hub h).ent (entKey kind e)
/-- An entry replaced or disabled. -/
def State.setEntry (s : State) (h kind e : Nat) (x : Option Entry) : State :=
  s.modHub h fun b => { b with ent := sput none b.ent (entKey kind e) x }
/-- Bits of an entry record. -/
def Entry.f (x : Entry) (hi lo : Nat) : Nat := bits x.desc.toNat hi lo

/-- Whether a ring of a tile is an edge ring of the hubs: enabled, PROD 0x6, EDGE 1. -/
def Tile.hubRing (t : Tile) (n : Nat) : Bool :=
  decide (t.fld .RING_CFG [n] F.RING_CFG_EN = 1) && decide (t.fld .RING_CFG [n] F.RING_CFG_PROD = 6) &&
    decide (t.fld .RING_CFG [n] F.RING_CFG_EDGE = 1)

/-- Whether an entry record is legal in its layout and its rings fit (R265, R277, Tables 10-11 and 11-3). -/
def State.recordOk (s : State) (h kind d v : Nat) : Bool :=
  let t := attached h (bits v 2 0)
  let x := s.tile t
  decide (bits v 2 0 ≤ 5) && decide (s.tilePolder t = some d) &&
    match kind with
    | 0 => decide (v / 2 ^ 16 = 0) && x.hubRing (bits v 7 3)
    | 1 => decide (bits v 7 3 = 0) && decide (v / 2 ^ 80 = 0)
    | 2 =>
      decide (bits v 47 46 = 0) && decide (v / 2 ^ 80 = 0) && x.hubRing (bits v 7 3) &&
        decide (ringN (x.ring (bits v 7 3)) = bits v 39 32 * (bits v 15 8 + 1) * bits v 31 16) &&
        (!bit v 45 || (x.hubRing (bits v 44 40) && decide (ringEsz (x.ring (bits v 44 40)) = 8)))
    | _ =>
      decide (bits v 15 15 = 0) && decide (v / 2 ^ 48 = 0) && x.hubRing (bits v 7 3) &&
        decide (4096 ≤ ringEsz (x.ring (bits v 7 3))) && x.hubRing (bits v 12 8) && decide (ringEsz (x.ring (bits v 12 8)) = 64) &&
        decide (s.fld .EP_SH [d, bits v 14 13] F.EP_SH_STATE = 1)

/-- The receive entries of a hub in use. -/
def Hub.recvEntries (b : Hub) : Nat := (b.ent.filter fun e => decide (192 ≤ e.1)).length

/-- TSET of an entry with its record: refused on an enabled entry, on an illegal record, on a full set of receive entries (R265, R277). -/
def State.tset (s : State) (h kind e d v : Nat) : Bool × State :=
  let full := decide (kind = 3) && decide (16 ≤ (s.hub h).recvEntries)
  if (s.entry h kind e).isNone && !full && s.recordOk h kind d v then
    (true, s.setEntry h kind e (some ⟨d, BitVec.ofNat 128 v, 0, []⟩))
  else (false, s)

/-! ### Requests to the host hub (R277, R290, Table 11-9) -/

/-- OFFH. -/
def HubReq.offh (q : HubReq) : Nat := bits q.w0.toNat 15 0
/-- TILE. -/
def HubReq.htile (q : HubReq) : Nat := bits q.w1.toNat 63 53
/-- LINE. -/
def HubReq.hline (q : HubReq) : Nat := bits q.w1.toNat 52 37
/-- NL. -/
def HubReq.nl (q : HubReq) : Nat := bits q.w1.toNat 36 33
/-- OFFL. -/
def HubReq.offl (q : HubReq) : Nat := bits q.w1.toNat 32 0
/-- Whether the reserved field is zero. -/
def HubReq.hrsvd (q : HubReq) : Bool := decide (bits q.w0.toNat 18 16 = 0)

/-- A slow-tier counter of the requesting polder. -/
def State.slowCount (s : State) (q : HubReq) (f : Fld) : State :=
  match q.polder with
  | some d => if f.hi = 31 then s.incWrap .SLOW_CNT [d] f 1 else s.incSat .SLOW_CNT [d] f 1
  | none => s
/-- A request of the host hub completed to its tile, with E = 1 where it failed; each counts in REQ_CNT (Table 11-16; DEDUCED, log 76: every
request of Table 11-9, a refused one too). -/
def State.hostTell (s : State) (q : HubReq) (ok : Bool) : State :=
  (s.slowCount q F.SLOW_CNT_REQ_CNT).tell 16 q.tile q.tenant q.cg (if ok then 0 else 8)
/-- A refused request (R290): completed with E = 1 and counted. -/
def State.hostRefuse (s : State) (q : HubReq) : State := (s.slowCount q F.SLOW_CNT_BADREQ_CNT).hostTell q false

/-- The request at the front of the host hub's queue, receipts apart, if its HOP is the one named or is undefined. -/
def State.takeHost (s : State) (hop : Nat) (k : HubReq → State → State) : State :=
  if s.isFrozen then s
  else match (s.hub 16).reqs.find? fun q => decide (q.hop ≠ 12) with
    | none => s
    | some q =>
      let bad := !([1, 2, 6, 7, 11] : List Nat).contains q.hop
      if decide (q.hop = hop) || bad then
        let s := s.modHub 16 fun x => { x with reqs := x.reqs.erase q }
        if bad || !q.hrsvd || q.polder.isNone then s.hostRefuse q else k q s
      else s

/-- The record of a TSET read in a free slot: its line of a tile's pad (unit 0x6). -/
def State.recordGet (s : State) (t line : Nat) : PadRes Bytes := (State.freeSlot t line 6 tries s).padGet t (64 * line) 16 6 0

/-- TSET of a receive entry of the host hub; a failed line check aborts the tile's segment (R37, Table 2-3). -/
def State.hostTset (s : State) : State :=
  s.takeHost 6 fun q s =>
    if decide (q.offh ≠ 0) || decide (q.nl ≠ 0) || decide (64 ≤ q.offl) || decide (1152 ≤ q.htile) ||
        decide (s.tilePolder q.htile ≠ q.polder) then s.hostRefuse q
    else match s.recordGet q.htile q.hline with
      | .ok b s => let r := s.tset 16 3 q.offl (q.polder.getD 8) (leNat b); if r.1 then r.2.hostTell q true else r.2.hostRefuse q
      | .crc s => (s.hostTell q false).abortSeg q.htile
      | .live s => s

/-- TSET (R265, R277): the record of 16 B at SLINE of ATILE. -/
def execTset (h : HubIx) (s : State) : Host.Outcome State Fault Refusal :=
  .next (if h.val = 16 then s.hostTset else s.takeReq h 6 fun q s =>
    let t := attached h q.atile
    match s.recordGet t q.sline with
    | .ok b s =>
      let r := s.tset h (q.aux % 4) q.entry (q.polder.getD 8) (leNat b)
      r.2.reqDone h q (if r.1 then 0 else 8)
    | .crc s => s.abortSeg t
    | .live s => s)

/-- TCLR of an entry that the polder set (R265). -/
def State.tclr (s : State) (h kind e d : Nat) : Bool × State :=
  match s.entry h kind e with
  | some x => if x.polder = d then (true, s.setEntry h kind e none) else (false, s)
  | none => (false, s)

/-- TCLR of a receive entry of the host hub. -/
def State.hostTclr (s : State) : State :=
  s.takeHost 7 fun q s =>
    if decide (q.offh ≠ 0) || decide (q.nl ≠ 0) || decide (64 ≤ q.offl) || decide (q.htile ≠ 0) || decide (q.hline ≠ 0) then s.hostRefuse q
    else let r := s.tclr 16 3 q.offl (q.polder.getD 8); if r.1 then r.2.hostTell q true else r.2.hostRefuse q

/-- TCLR (R265, R290). -/
def execTclr (h : HubIx) (s : State) : Host.Outcome State Fault Refusal :=
  .next (if h.val = 16 then s.hostTclr else s.takeReq h 7 fun q s =>
    let r := s.tclr h (q.aux % 4) q.entry (q.polder.getD 8)
    r.2.reqDone h q (if r.1 then 0 else 8))

/-- GRANT_REQUEST (R267): lines granted on a landing entry; a grant beyond 2^24 - 1 is refused. -/
def execGrantRequest (h : HubIx) (s : State) : Host.Outcome State Fault Refusal :=
  .next (s.takeReq h 5 fun q s =>
    match s.entry h 0 q.entry with
    | none => s.reqDone h q 2
    | some x =>
      let g := x.gout + q.cnt + 1
      if decide (2 ^ 24 ≤ g) || decide (some x.polder ≠ q.polder) then s.reqDone h q 8
      else
        let s := s.setEntry h 0 q.entry (some { x with gout := g })
        s.submit q.path (s.reqMsg h q 5 0 0 0 q.cnt [] false false))

/-! ### Arriving messages: what they share -/

/-- OP of a message. -/
def RxMsg.op (m : RxMsg) : Nat := bits m.w0.toNat 63 60
/-- ENTRY. -/
def RxMsg.entry (m : RxMsg) : Nat := bits m.w0.toNat 59 54
/-- SGEN. -/
def RxMsg.sgen (m : RxMsg) : Nat := bits m.w0.toNat 53 46
/-- RANK. -/
def RxMsg.rank (m : RxMsg) : Nat := bits m.w0.toNat 45 38
/-- AUX. -/
def RxMsg.aux (m : RxMsg) : Nat := bits m.w0.toNat 37 22
/-- AMOUNT. -/
def RxMsg.amount (m : RxMsg) : Nat := bits m.w0.toNat 21 6
/-- NBYTES. -/
def RxMsg.nbytes (m : RxMsg) : Nat := bits m.w1.toNat 63 40
/-- SRCIDX. -/
def RxMsg.srcidx (m : RxMsg) : Nat := bits m.w1.toNat 39 32

/-- The peer a port is trained to. -/
def State.peerId (s : State) (p : Nat) : Nat := s.fld .PORT_STAT [p] F.PORT_STAT_PEERID
/-- The message at the front of a class of a port replaced. -/
def State.setRx (s : State) (p cls : Nat) (m : RxMsg) : State :=
  s.modPort p fun x => { x with rx := sput [] x.rx cls (m :: (sget [] x.rx cls).drop 1) }

/-- A message done: its units are freed and, where one is wanted, its completion joins those to be sent (R240, R251, R263). -/
def State.finishRx (s : State) (p cls : Nat) (m : RxMsg) (status : Nat) : State :=
  let s := (s.setRx p cls m).dropRx p cls
  if m.mute then s
  else s.modPort p fun x => { x with cmpls := sput [] x.cmpls cls (sget [] x.cmpls cls ++ [(m.msgid, status, m.lines)]) }

/-- A failed message: the hub counts its cause; it is dropped when its last flit is there, and its units as they come. -/
def State.failRx (s : State) (p cls : Nat) (m : RxMsg) (status : Nat) : State :=
  let s := s.hubCount p status
  let m := { m with buf := [], begun := true, fail := some status }
  if m.eom then s.finishRx p cls m status
  else (s.setRx p cls { m with units := [] }).modPort p fun x => x.freeUnits cls m.units

/-- Whether a message's tag is that of the polder that owns a tile (R18, R266). -/
def State.tagOk (s : State) (tenant tile : Nat) : Bool :=
  match s.tilePolder tile with
  | some d => decide (s.tenant d = tenant)
  | none => false

/-- Whether a message must carry the tag of a polder attached to the hub (R18): all but completions and time messages, which enter no tile. -/
def RxMsg.checksTag (m : RxMsg) : Bool := !([6, 7] : List Nat).contains m.op

/-- The message at the front of a class of a port taken up as far as it has arrived, if it is of operation `op` (an undefined operation
completes with BADREQ under RING_MESSAGE): `start` checks a new one and `go` works on its data; what `go` leaves of the data stays
in the pool with its units. Hubs of a frozen device deliver nothing (R419). -/
def State.takeRx (s : State) (p cls op : Nat) (start : RxMsg → State → Option Nat × State) (go : RxMsg → State → State) : State :=
  if s.isFrozen then s
  else match sget [] (s.lport p).rx cls with
    | [] => s
    | m :: _ =>
      let undef := decide (m.op = 0) || decide (11 < m.op) || (decide (m.op = 7) && decide (cls ≠ 1))
      if decide (m.op = op) || (undef && decide (op = 1)) then
        match m.fail with
        | some st =>
          if m.eom then s.finishRx p cls { m with buf := [] } st
          else (s.setRx p cls { m with buf := [], units := [] }).modPort p fun x => x.freeUnits cls m.units
        | none =>
          if m.mixed && m.checksTag then s.failRx p cls m 1
          else if m.begun then go m s
          else if undef then s.failRx p cls m 8
          else if m.checksTag && !(List.range 6).any fun a => s.tagOk m.tenant (attached p a) then s.failRx p cls m 1
          else match start m s with
            | (some st, s) => s.failRx p cls m st
            | (none, s) => go { m with begun := true } s
      else s

/-- Data taken up: the message goes on with what is left; units of flits wholly taken up are freed. -/
def State.advanceRx (s : State) (p cls : Nat) (m : RxMsg) (n : Nat) : State :=
  let rest := m.buf.drop n
  let keep := (rest.length + 239) / 240
  let cut := m.units.length - keep
  let s := s.setRx p cls { m with buf := rest, pos := m.pos + n, units := m.units.drop cut }
  s.modPort p fun x => x.freeUnits cls (m.units.take cut)

/-- Bytes written to a ring at byte `off` beyond its tail entry, whole lines or entries below a line, in a free slot (unit 0x6). -/
def State.ringPut (s : State) (t n off : Nat) (b : Bytes) : State :=
  let x := s.tile t
  let size := ringN (x.ring n) * ringEsz (x.ring n)
  let a := x.entryAddr n 0 + (x.tail n * ringEsz (x.ring n) + off) % max 1 size
  match (State.freeSlot t (a / 64) 6 tries s).padPut t a b 6 0 with
  | .ok _ s => s
  | .crc s => s
  | .live s => s

/-- Entries of a ring, from the one that byte `off` beyond the tail lies in, that find room (R43). -/
def Tile.roomAt (t : Tile) (n off : Nat) : Nat := ringN (t.ring n) - t.kept n - off / ringEsz (t.ring n)

/-- A ring that lost `k` entries, each counted (R46). -/
def Tile.ringLost (t : Tile) (n : Nat) : Nat → Tile
  | 0 => t
  | k + 1 => Tile.ringLost (t.ringOver n) n k

/-- Lines landed at a ring beyond its tail: those of entries that find no room are dropped, each entry counted once (R46); whether one
was dropped, how many lines and how many whole entries were stored. -/
def State.landRing (t n : Nat) : List Bytes → Nat → Bool → Nat × Nat → State → Bool × (Nat × Nat) × State
  | [], _, ovr, k, s => (ovr, k, s)
  | b :: bs, off, ovr, k, s =>
    let x := s.tile t
    let esz := ringEsz (x.ring n)
    let room := if ovr then 0 else x.roomAt n off
    if esz < 64 then
      let m := min room (b.length / esz)
      let s := if m = 0 then s else s.ringPut t n off (b.take (m * esz))
      let lost := b.length / esz - m
      State.landRing t n bs (off + b.length) (decide (lost ≠ 0)) (k.1 + (if m = 0 then 0 else 1), k.2 + m) (s.modTile t fun x => x.ringLost n lost)
    else
      let last := if (off + b.length) % esz = 0 then 1 else 0
      if room = 0 then State.landRing t n bs (off + b.length) true k (s.modTile t fun x => x.ringLost n last)
      else State.landRing t n bs (off + b.length) false (k.1 + 1, k.2 + last) (s.ringPut t n off b)

/-- The packing declaration that a message arrived under, with the path of its port (R302, R314). -/
def RxMsg.declared (m : RxMsg) : Option (Nat × Decl) := m.decl.bind fun e => if (declOf e.2).en then some (e.1, declOf e.2) else none

/-- A packed message that fails its checks recorded (R312, R313). -/
def State.packFail (s : State) (p path cause bidx : Nat) : State :=
  let w := s.reg .PACK_ERR [p]
  let w := if F.PACK_ERR_FE.get w = 0 then
      F.PACK_ERR_BIDX.set (F.PACK_ERR_CAUSE.set (F.PACK_ERR_PATH.set w path) cause) bidx
    else w
  ((s.setReg .PACK_ERR [p] w).setFld .PACK_ERR [p] F.PACK_ERR_FE 1).incSat .PACK_CNT [p] F.PACK_CNT_FMT_CNT 1

/-- Whole blocks of a packed message landed, in order, until one fails its checks: the lines to write and the cause. -/
def landBlocks (d : Decl) (pos : Nat) (b : Bytes) : Nat → List Bytes × Nat × Option Nat
  | 0 => ([], 0, none)
  | n + 1 =>
    let r := landBlocks d pos b n
    match r.2.2 with
    | some _ => r
    | none =>
      let k := 64 * d.packed
      let p := slice b (k * n) k
      match blockCause d (pos / k + n) p with
      | some c => (r.1, r.2.1, some c)
      | none => (r.1 ++ chunks 64 17 (if d.keep then p else unpackBlock d p), r.2.1 + 1, none)

/-- Landed lines of a message's whole length (R304). -/
def RxMsg.landed? (m : RxMsg) (d : Option Decl) : Nat :=
  match d with
  | some d => m.nbytes / (64 * d.packed) * d.landed
  | none => m.nbytes / 64

/-- The lines that a message's arrived data makes, none beyond its NBYTES: those to write, the bytes taken up, packed blocks taken, and a cause
of failure. -/
def RxMsg.linesNow (m : RxMsg) (d : Option Decl) : List Bytes × Nat × Nat × Option Nat :=
  let b := m.buf.take (m.nbytes - m.pos)
  match d with
  | none => let n := b.length / 64; (chunks 64 (n + 1) (b.take (64 * n)), 64 * n, 0, none)
  | some d =>
    let k := 64 * d.packed
    let n := b.length / k
    let r := landBlocks d m.pos b n
    (r.1, k * n, r.2.1, r.2.2)

/-- Landed lines of what a message has had taken up. -/
def RxMsg.landedSoFar (m : RxMsg) (d : Option Decl) : Nat :=
  match d with
  | some d => m.pos / (64 * d.packed) * d.landed
  | none => m.pos / 64

/-! ### RING (R267, R312) -/

/-- The checks of a RING message when it is taken up. -/
def State.ringStart (s : State) (p : Nat) (m : RxMsg) : Option Nat × State :=
  match s.entry p 0 m.entry with
  | none => (some 2, s)
  | some x =>
    let t := attached p (x.f 2 0); let n := x.f 7 3
    let d := m.declared
    let l := m.landed? (d.map Prod.snd)
    if !s.tagOk m.tenant t then (some 1, s)
    else if decide (m.srcidx ≠ x.f 15 8) || decide (s.app .PEERTAB [x.polder, m.srcidx] F.PEERTAB_V ≠ 1) ||
        decide (s.app .PEERTAB [x.polder, m.srcidx] F.PEERTAB_PEERID ≠ s.peerId p) || !(s.tile t).hubRing n then (some 2, s)
    else if x.gout < l then (some 4, s)
    else
      let s' := s.setEntry p 0 m.entry (some { x with gout := x.gout - l })
      match d with
      | none => if decide (m.nbytes % 64 ≠ 0) || decide (64 * l % ringEsz ((s.tile t).ring n) ≠ 0) then (some 8, s) else (none, s')
      | some (path, dc) =>
        let fmt := (s.tile t).fld .RING_CFG [n] F.RING_CFG_FMT
        if m.nbytes % (64 * dc.packed) ≠ 0 then (some 5, s'.packFail p path 1 0)
        else if decide (fmt ≠ 0) && decide (fmt ≠ if dc.keep then 0xE else dc.fmt) then (some 5, s'.packFail p path 2 0)
        else if 64 * l % ringEsz ((s.tile t).ring n) ≠ 0 then (some 8, s)
        else (none, s')

/-- The arrived lines of a RING message written beyond the tail; at its end the ring advances over the entries stored. -/
def State.ringGo (s : State) (p cls : Nat) (m : RxMsg) : State :=
  match s.entry p 0 m.entry with
  | none => s.failRx p cls m 2
  | some x =>
    let t := attached p (x.f 2 0); let n := x.f 7 3
    let d := m.declared
    let dc := d.map Prod.snd
    let r := m.linesNow dc
    let w := State.landRing t n r.1 (64 * m.landedSoFar dc) m.flag (m.lines, m.blk) s
    let s := if d.isSome then w.2.2.incWrap .PACK_CNT [p] F.PACK_CNT_BLK_RX r.2.2.1 else w.2.2
    let m := { m with flag := w.1, lines := w.2.1.1, blk := w.2.1.2 }
    match r.2.2.2, d with
    | some c, some (path, dcl) => (s.packFail p path c (m.pos / (64 * dcl.packed) + r.2.2.1)).failRx p cls m 5
    | _, _ =>
      if m.eom then
        if m.pos + m.buf.length ≠ m.nbytes then s.failRx p cls m 8
        else
          let s := s.modTile t fun y => y.advTail n m.blk
          if m.flag then (s.hubCount p 4).finishRx p cls m 4 else s.finishRx p cls m 0
      else s.advanceRx p cls m r.2.1

/-- RING_MESSAGE (R266, R267, R305, R310, R312). -/
def execRingMessage (p : PortIx) (cls : ClassIx) (s : State) : Host.Outcome State Fault Refusal :=
  .next (s.takeRx p cls 1 (fun m s => s.ringStart p m) fun m s => s.ringGo p cls m)

/-! ### SLUICE (R268) -/

/-- The checks of a SLUICE message. -/
def State.sluiceStart (s : State) (p : Nat) (m : RxMsg) : Option Nat × State :=
  match s.entry p 1 m.entry with
  | none => (some 3, s)
  | some x =>
    let d := m.declared
    let l := m.landed? (d.map Prod.snd)
    if !s.tagOk m.tenant (attached p (x.f 2 0)) then (some 1, s)
    else if decide (s.peerId p < x.f 63 48) || decide (x.f 79 64 < s.peerId p) || decide (m.sgen ≠ x.f 15 8) ||
        decide (x.f 47 32 + 1 < x.f 31 16 + m.aux + l) then (some 3, s)
    else match d with
      | some (path, dc) => if m.nbytes % (64 * dc.packed) ≠ 0 then (some 5, s.packFail p path 1 0) else (none, s)
      | none => if m.nbytes % 64 ≠ 0 then (some 8, s) else (none, s)

/-- Lines written one after the other into a tile's pad by a hub, each in a free slot. -/
def State.putLines (t : Nat) : List Bytes → Nat → State → State
  | [], _, s => s
  | b :: bs, line, s =>
    match (State.freeSlot t line 6 tries s).padPut t (64 * line) b 6 0 with
    | .ok _ s => State.putLines t bs (line + 1) s
    | .crc s => State.putLines t bs (line + 1) s
    | .live s => State.putLines t bs (line + 1) s

/-- The arrived lines of a SLUICE message written; an entry disabled, or reopened under another generation, while it arrives makes the rest a
violation (R265, R268). -/
def State.sluiceGo (s : State) (p cls : Nat) (m : RxMsg) : State :=
  match s.entry p 1 m.entry with
  | none => s.failRx p cls m 3
  | some x =>
    if m.sgen ≠ x.f 15 8 then s.failRx p cls m 3
    else
    let d := m.declared
    let dc := d.map Prod.snd
    let r := m.linesNow dc
    let s := State.putLines (attached p (x.f 2 0)) r.1 (x.f 31 16 + m.aux + m.landedSoFar dc) s
    let s := if d.isSome then s.incWrap .PACK_CNT [p] F.PACK_CNT_BLK_RX r.2.2.1 else s
    let m := { m with lines := m.lines + r.1.length }
    match r.2.2.2, d with
    | some c, some (path, dcl) => (s.packFail p path c (m.pos / (64 * dcl.packed) + r.2.2.1)).failRx p cls m 5
    | _, _ =>
      if m.eom then
        if m.pos + m.buf.length ≠ m.nbytes then s.failRx p cls m 8 else s.finishRx p cls m 0
      else s.advanceRx p cls m r.2.1

/-- SLUICE_MESSAGE (R266, R268, R305, R312). -/
def execSluiceMessage (p : PortIx) (cls : ClassIx) (s : State) : Host.Outcome State Fault Refusal :=
  .next (s.takeRx p cls 2 (fun m s => s.sluiceStart p m) fun m s => s.sluiceGo p cls m)

/-! ### SLOT (R196, R197, R269) -/

/-- S, B, M of a slot entry. -/
def Entry.slots (x : Entry) : Nat := x.f 15 8 + 1
/-- B. -/
def Entry.blockLen (x : Entry) : Nat := x.f 31 16
/-- M. -/
def Entry.regions (x : Entry) : Nat := x.f 39 32

/-- The block position that a block takes, R197: by its rank with DET = 1, the next free one with DET = 0; none where entries are
still occupied or the position is taken. -/
def slotPos (x : Entry) (y : Tile) (n region batch rank : Nat) (det : Bool) : Option Nat :=
  match x.fill.find? fun f => f.region = region with
  | some f =>
    let free := fun j : Nat => !f.pos.any fun q => decide (q.1 = j)
    if f.batch ≠ batch then none
    else if det then (if free rank then some rank else none)
    else (List.range x.slots).find? free
  | none =>
    let b := max 1 x.blockLen
    let tail := y.tail n / b
    let ms := max 1 (x.regions * x.slots)
    let d := (region * x.slots + ms - tail % ms) % ms
    if y.kept n + (d + x.slots) * b ≤ ringN (y.ring n) then some (if det then rank else 0) else none

/-- A lost block sets ERR on its ring's producer gauge (R45, R196, R87). -/
def Tile.blockLost (t : Tile) (n : Nat) : Tile :=
  let g := t.reg .RING_GAUGE [n]
  if F.RING_GAUGE_PEN.get g = 1 then t.gadd (F.RING_GAUGE_PG.get g) 0 true else t

/-- A position of a region taken by a block. -/
def Entry.take (x : Entry) (region batch j rank : Nat) : Entry :=
  if x.fill.any fun f => f.region = region then
    { x with fill := x.fill.map fun f => if f.region = region then { f with pos := f.pos ++ [(j, rank)] } else f }
  else { x with fill := x.fill ++ [⟨region, batch, [(j, rank)], []⟩] }

/-- The checks of a SLOT message; its block takes its position. A block of a permitted peer that is lost sets ERR on the ring's gauge (R196). -/
def State.slotStart (s : State) (p : Nat) (m : RxMsg) : Option Nat × State :=
  match s.entry p 2 m.entry with
  | none => (some 2, s)
  | some x =>
    let t := attached p (x.f 2 0); let n := x.f 7 3
    let y := s.tile t
    let lost := s.modTile t fun y => y.blockLost n
    if !s.tagOk m.tenant t then (some 1, s)
    else if decide (s.peerId p < x.f 63 48) || decide (x.f 79 64 < s.peerId p) then (some 2, s)
    else if !y.hubRing n || decide (ringN (y.ring n) ≠ x.regions * x.slots * x.blockLen) || decide (x.slots ≤ m.rank) ||
        decide (m.nbytes ≠ x.blockLen * ringEsz (y.ring n)) then (some 2, lost)
    else
      let region := m.aux % max 1 x.regions
      let det := decide (s.app .DET_CFG [x.polder] F.DET_CFG_DET = 1)
      match slotPos x y n region m.aux m.rank det with
      | none => (some 4, lost.modTile t fun y => y.ringOver n)
      | some j => (none, s.setEntry p 2 m.entry (some (x.take region m.aux j m.rank)))

/-- The block at a slot ring's tail: region and position. -/
def Entry.atTail (x : Entry) (y : Tile) (n : Nat) : Nat × Nat :=
  let k := y.tail n / max 1 x.blockLen
  (k / x.slots, k % x.slots)

/-- TAIL advances over every block written at it, at most `fuel` of them (R197): its order record first, while the order ring has
room. -/
def State.slotAdvance (h e : Nat) : Nat → State → State
  | 0, s => s
  | fuel + 1, s =>
    match s.entry h 2 e with
    | none => s
    | some x =>
      let t := attached h (x.f 2 0); let n := x.f 7 3; let o := x.f 44 40
      let y := s.tile t
      let at' := x.atTail y n
      match x.fill.find? fun f => decide (f.region = at'.1) && f.done.contains at'.2 with
      | none => s
      | some f =>
        let rank := ((f.pos.find? fun q => q.1 = at'.2).map Prod.snd).getD 0
        let oen := bit x.desc.toNat 45
        if oen && y.ringFull o then s
        else
          let s := if oen then
              (s.ringPut t o 0 (natLe 8 (f.batch % 65536 * 65536 + rank))).modTile t fun y => y.advTail o 1
            else s
          let s := s.modTile t fun y => y.advTail n x.blockLen
          let fill := if at'.2 + 1 = x.slots then x.fill.filter fun g => decide (g.region ≠ f.region) else x.fill
          State.slotAdvance h e fuel (s.setEntry h 2 e (some { x with fill := fill }))

/-- The blocks of a region written: those whose last line is there. -/
def Entry.wrote (x : Entry) (region j : Nat) : Entry :=
  { x with fill := x.fill.map fun f => if f.region = region then { f with done := f.done ++ [j] } else f }

/-- The position that the block taken up last in a region took. -/
def Entry.posOf (x : Entry) (region : Nat) : Nat :=
  match x.fill.find? fun f => f.region = region with
  | some f => (f.pos.getLast?.map Prod.fst).getD 0
  | none => 0

/-- A written block that waits for its order record keeps its message and units; one that does not is complete (R197). -/
def State.slotSettle (s : State) (p cls : Nat) (m : RxMsg) : State :=
  let s := State.slotAdvance p m.entry 65536 s
  match s.entry p 2 m.entry with
  | none => s.finishRx p cls m 0
  | some x =>
    let y := s.tile (attached p (x.f 2 0))
    let at' := x.atTail y (x.f 7 3)
    if decide (at' = (m.aux % max 1 x.regions, m.blk - 1)) && x.fill.any fun f => decide (f.region = at'.1) && f.done.contains at'.2 then
      s.setRx p cls m
    else s.finishRx p cls m 0

/-- The arrived lines of a SLOT message written at its block's place; at its end the block counts as written. -/
def State.slotGo (s : State) (p cls : Nat) (m : RxMsg) : State :=
  match s.entry p 2 m.entry with
  | none => s.failRx p cls m 2
  | some x =>
    if m.flag then s.slotSettle p cls m
    else
      let t := attached p (x.f 2 0); let n := x.f 7 3
      let region := m.aux % max 1 x.regions
      let j := if m.blk = 0 then x.posOf region else m.blk - 1
      let r := m.linesNow none
      let line := ((s.tile t).entryAddr n ((region * x.slots + j) * x.blockLen) + m.pos) / 64
      let s := State.putLines t r.1 line s
      let m := { m with lines := m.lines + r.1.length, blk := j + 1 }
      if m.eom then
        if m.pos + m.buf.length ≠ m.nbytes then (s.modTile t fun y => y.blockLost n).failRx p cls m 8
        else
          let m := { m with flag := true, buf := [], pos := m.nbytes }
          (s.setEntry p 2 m.entry (some (x.wrote region j))).slotSettle p cls m
      else s.advanceRx p cls m r.2.1

/-- SLOT_MESSAGE (R196, R197, R269). -/
def execSlotMessage (p : PortIx) (cls : ClassIx) (s : State) : Host.Outcome State Fault Refusal :=
  .next (s.takeRx p cls 3 (fun m s => s.slotStart p m) fun m s => s.slotGo p cls m)

/-- ORDER_RING_RESUME (R197): the order ring has room again; the waiting block's record is written and its message completes. -/
def execOrderRingResume (h : HubIx) (e : EntryIx) (s : State) : Host.Outcome State Fault Refusal :=
  .next (if s.isFrozen then s else
    (List.range 8).foldl (fun s c =>
      match sget [] (s.lport h).rx c with
      | m :: _ => if decide (m.op = 3) && m.flag && decide (m.entry = e.val) then s.slotSettle h c m else s
      | [] => s) (State.slotAdvance h e 65536 s))

/-! ### RGADD, GRANT, CMPL (R263, R267, R269) -/

/-- RGADD_MESSAGE (R266, R269): a remote gauge add to the named tile. -/
def execRgaddMessage (p : PortIx) (cls : ClassIx) (s : State) : Host.Outcome State Fault Refusal :=
  .next (s.takeRx p cls 4
    (fun m s =>
      let t := m.aux % 2048
      if 1152 ≤ t then (some 8, s) else if s.tagOk m.tenant t then (none, s) else (some 1, s))
    fun m s =>
      let g : GaugeAdd := ⟨1152 + p.val, BitVec.ofNat 16 m.tenant, Fin.ofNat 1152 (m.aux % 2048), Fin.ofNat 16 m.sgen,
        BitVec.ofNat 32 m.amount, false⟩
      { s with gadds := s.gadds ++ [g] }.finishRx p cls m 0)

/-- GRANT_MESSAGE (R267): lines added to the credit counter of the port's path and the entry. -/
def execGrantMessage (p : PortIx) (cls : ClassIx) (s : State) : Host.Outcome State Fault Refusal :=
  .next (s.takeRx p cls 5 (fun _ s => (none, s)) fun m s =>
    match s.pathOf p with
    | none => s.failRx p cls m 2
    | some n =>
      let k := creditKey n m.entry
      let c := sget 0 s.credits k + m.amount + 1
      if 2 ^ 24 ≤ c then s.failRx p cls m 8 else { s with credits := sput 0 s.credits k c }.finishRx p cls m 0)

/-- A completion record at its source (R263): the message of its MSGID is done. -/
def State.record (s : State) (p : Nat) (r : Bytes) : State :=
  let w := leNat (slice r 0 8)
  let id := bits w 63 52
  match (s.lport p).wait.find? fun e => e.1 = id with
  | none => s
  | some e => (s.modPort p fun x => { x with wait := x.wait.filter fun f => decide (f.1 ≠ id) }).complete e.2 (bits w 51 44)

/-- CMPL (R263, R264): up to 14 records. -/
def execCmpl (p : PortIx) (cls : ClassIx) (s : State) : Host.Outcome State Fault Refusal :=
  .next (s.takeRx p cls 6 (fun m s => (none, s.setRx p cls { m with begun := true }))
    fun m s => (chunks 16 (m.buf.length / 16 + 1) (m.buf.take (m.buf.length / 16 * 16))).foldl (fun s r => s.record p r)
      (s.finishRx p cls { m with mute := true } 0))

end Sys2Proof.Machine
end

