-- ==== Sys2Proof/Machine/Epoch.lean ====
section
/-! DEFINITION. Epoch slots of the polders: opening, switching, admission, watermark (R282 to R287, R299). -/
namespace Sys2Proof.Machine

/-- STATE of an epoch slot (Table 11-6): 0 EMPTY, 1 LOADING, 2 READY, 3 LIVE, 4 DRAINING. -/
def State.epState (s : State) (d sl : Nat) : Nat := s.fld .EP_SH [d, sl] F.EP_SH_STATE
/-- STATE of an epoch slot written. -/
def State.setEpState (s : State) (d sl v : Nat) : State := s.setFld .EP_SH [d, sl] F.EP_SH_STATE v
/-- A refused write or command (EP_CFG.REJ). -/
def State.epRej (s : State) (d : Nat) : State := s.setFld .EP_CFG [d] F.EP_CFG_REJ 1
/-- The key of an epoch slot's verified indices. -/
def epKey (d sl : Nat) : Nat := 4 * d + sl
/-- An index of the shard or of the common set as it is kept. -/
def epIndex (common : Bool) (i : Nat) : Nat := if common then 65536 + i else i

/-- OPEN (R283): LOADING, or READY where nothing is to be loaded. -/
def State.epOpen (s : State) (d sl : Nat) : State :=
  let n := s.fld .EP_SH [d, sl] F.EP_SH_NBAT + s.fld .EP_SH [d, sl] F.EP_SH_NCOM
  let e := s.fld .EP_ID [d, sl] F.EP_ID_EPOCH
  let dup := (List.range 4).any fun k => decide (k ≠ sl) && decide (s.epState d k ≠ 0) && decide (s.fld .EP_ID [d, k] F.EP_ID_EPOCH = e)
  if decide (s.epState d sl ≠ 0) || decide (e = 0xFFFFFFFF) || dup || decide (4096 < n) then s.epRej d
  else
    let s := { s with verified := sput [] s.verified (epKey d sl) [] }
    let w := F.EP_SH_VCNT.set (F.EP_SH_LV.set (F.EP_SH_FV.set (s.reg .EP_SH [d, sl]) 0) 0) 0
    s.setReg .EP_SH [d, sl] (F.EP_SH_STATE.set w (if n = 0 then 2 else 1))

/-- Slot `sl` LIVE from batch `b`, the previous LIVE slot DRAINING to `b` - 1 (R285). -/
def State.goLive (s : State) (d sl b : Nat) : State :=
  let s := ((List.range 4).filter fun k => decide (s.epState d k = 3)).foldl (fun s k =>
    let s := (s.setEpState d k 4).setFld .EP_RANGE [d, k] F.EP_RANGE_LAST_B (b + 2 ^ 32 - 1)
    s.setFld .EP_SH [d, k] F.EP_SH_LV 1) s
  let s := (s.setEpState d sl 3).setFld .EP_RANGE [d, sl] F.EP_RANGE_FIRST_B b
  s.setFld .EP_SH [d, sl] F.EP_SH_FV 1

/-- A DRAINING slot that the watermark has passed becomes EMPTY with its event (R286). -/
def State.epRetire (s : State) (d : Nat) : State :=
  let b := s.fld .EP_STAT [d] F.EP_STAT_DONE_B
  ((List.range 4).filter fun k => decide (s.epState d k = 4) && decide (s.fld .EP_SH [d, k] F.EP_SH_LV = 1) &&
    decide ((b + 2 ^ 32 - s.fld .EP_RANGE [d, k] F.EP_RANGE_LAST_B) % 2 ^ 32 < 2 ^ 31)).foldl (fun s k =>
      ((s.setEpState d k 0).setFld .EP_CFG [d] F.EP_CFG_RET 1).event 2 (some d) (natLe 4 (s.fld .EP_ID [d, k] F.EP_ID_EPOCH))) s

/-- SWITCH (R285): on the admission chip it travels to the admission tile, behind those sent before it; on another chip ARG is the boundary. -/
def State.epSwitch (s : State) (d sl arg : Nat) : State :=
  if s.epState d sl ≠ 2 then s.epRej d
  else if s.fld .EP_CFG [d] F.EP_CFG_ADM = 1 then { s with admSwitch := sput [] s.admSwitch d (sget [] s.admSwitch d ++ [sl]) }
  else (s.goLive d sl arg).epRetire d

/-- The contexts of a hub that receive through entries of an epoch slot freed, and those entries disabled (R287). -/
def Hub.dropSlot (b : Hub) (gone : Entry → Bool) : Hub × List (Nat × RecvCtx) :=
  let es := (b.ent.filter fun e => decide (192 ≤ e.1) && (match e.2 with | some x => gone x | none => false)).map Prod.fst
  let cs := b.recv.filterMap fun e => match e.2 with
    | some c => if es.contains (entKey 3 c.entry) then some (e.1, c) else none
    | none => none
  ({ b with ent := b.ent.filter fun e => !es.contains e.1 }, cs)

/-- EP_OPEN of a session or of EP_CTL. -/
def execEpochOpen (d : PolderIx) (sl : SlotIx) (s : State) : Host.Outcome State Fault Refusal := .next (s.epOpen d sl)

/-- EPOCH_SWITCH. -/
def execEpochSwitch (d : PolderIx) (sl : SlotIx) (arg : BitVec 32) (s : State) : Host.Outcome State Fault Refusal :=
  .next (s.epSwitch d sl arg.toNat)

/-- ADMISSION_SWITCH (R285): the switch reaches the admission tile; it shows from the next fc on. Terern reports the boundary. -/
def execAdmissionSwitch (d : PolderIx) (s : State) : Host.Outcome State Fault Refusal :=
  .next (match sget [] s.admSwitch d with
    | [] => s
    | sl :: rest =>
      s.onDom d fun s =>
        let s := { s with admSwitch := sput [] s.admSwitch d rest }
        if s.epState d sl ≠ 2 then s
        else
          let s := s.nextFc (s.fld .EP_CFG [d] F.EP_CFG_ATILE)
          let b := s.fld .EP_STAT [d] F.EP_STAT_NEXT_B
          ((s.goLive d sl b).event 1 (some d) (natLe 4 (s.fld .EP_ID [d, sl] F.EP_ID_EPOCH) ++ natLe 4 b)).epRetire d)

/-- EP_ADMIT read in a tile (R284): batch and LIVE epoch in the admission tile, else all ones. -/
def State.nextBatch (s : State) (t : Nat) : W64 × State :=
  match s.tilePolder t with
  | none => (BitVec.allOnes 64, s)
  | some d =>
    match (List.range 4).find? fun k => decide (s.epState d k = 3) with
    | some k =>
      if decide (s.fld .EP_CFG [d] F.EP_CFG_ADM = 1) && decide (s.fld .EP_CFG [d] F.EP_CFG_ATILE = t) then
        let b := s.fld .EP_STAT [d] F.EP_STAT_NEXT_B
        (BitVec.ofNat 64 (b * 2 ^ 32 + s.fld .EP_ID [d, k] F.EP_ID_EPOCH), s.incWrap .EP_STAT [d] F.EP_STAT_NEXT_B 1)
      else (BitVec.allOnes 64, s)
    | none => (BitVec.allOnes 64, s)

/-- EP_DONE (R286): a write of a tile reaches the epoch unit. -/
def execEpDone (t : TileIx) (b : BitVec 32) (s : State) : Host.Outcome State Fault Refusal :=
  .next (if s.isFrozen then s else
    let s := { s with epDones := s.epDones.erase (t.val, b) }
    match s.tilePolder t with
    | none => s
    | some d =>
      let k := (b.toNat + 2 ^ 32 - s.fld .EP_STAT [d] F.EP_STAT_DONE_B) % 2 ^ 32
      if decide (1 ≤ k) && decide (k < 2 ^ 31) then (s.setFld .EP_STAT [d] F.EP_STAT_DONE_B b.toNat).epRetire d else s)

/-- A write of EP_ID, EP_DIG or EP_SH (R299): management core only, the RW fields, while the slot is EMPTY. -/
def State.wrEpSlot (src : Writer) (r : Reg) (i : List Nat) (v : W64) (s : State) : State :=
  match i with
  | d :: sl :: _ =>
    if !isMgmt src then s
    else if s.epState d sl = 0 then s.write r i v
    else s.epRej d
  | _ => s

end Sys2Proof.Machine
end

