-- ==== Sys2Proof/Machine/Baton.lean ====
section
/-! DEFINITION. Batons (R273 to R281, R287, R300): receive contexts, send contexts, delivery into the rings of the receive entries. -/
namespace Sys2Proof.Machine

/-! ### Headers (Table 11-1) -/

/-- A field of a header: `n` bytes from byte `i`. -/
def hdrF (b : Bytes) (i n : Nat) : Nat := leNat (slice b i n)
/-- LEN of a header. -/
def hdrLen (b : Bytes) : Nat := hdrF b 28 4
/-- Whether a baton is a common one. -/
def hdrCommon (b : Bytes) : Bool := decide (hdrF b 20 2 = 0xFFFF)
/-- INDEX as the epoch slot keeps it. -/
def hdrIndex (b : Bytes) : Nat := epIndex (hdrCommon b) (hdrF b 22 2)
/-- Whether MAGIC, VER, KIND, the reserved bytes, LEN and INDEX are legal (cause 1). -/
def hdrOk (b : Bytes) : Bool :=
  decide (hdrF b 0 4 = 0xBA700C01) && decide (hdrF b 4 2 = 1) && decide (hdrF b 26 1 ≤ 1) && decide (hdrF b 27 1 = 0) &&
    decide (1 ≤ hdrLen b) && decide (hdrLen b ≤ 1048576) && decide (hdrF b 22 2 < hdrF b 24 2) && decide (hdrF b 176 208 = 0) &&
    decide (hdrF b 498 14 = 0)

/-- Whether a key slot is bound to polder `d` for a tenant and a key identifier, R370. -/
def State.keyBound (s : State) (k d tenant keyid : Nat) : Bool :=
  decide (s.app .KEY_BIND [k] F.KEY_BIND_EN = 1) && bit (s.app .KEY_BIND [k] F.KEY_BIND_POLDERS) d &&
    decide (s.app .KEY_BIND [k] F.KEY_BIND_TENANT = tenant) && decide (s.app .KEY_BIND [k] F.KEY_BIND_KEYID = keyid) &&
    decide (s.fld .KEY_STAT [k] F.KEY_STAT_LOADED = 1)
/-- The key slot bound so. -/
def State.boundKey (s : State) (d tenant keyid : Nat) : Option Nat := (List.range 256).find? fun k => s.keyBound k d tenant keyid
/-- A key slot held by one more or one fewer baton context (KEY_STAT.INUSE). -/
def State.keyUse (s : State) (k : Nat) (more : Bool) : State :=
  s.setFld .KEY_STAT [k] F.KEY_STAT_INUSE (let n := s.fld .KEY_STAT [k] F.KEY_STAT_INUSE; if more then n + 1 else n - 1)

/-- A tenant's record; one whose keys are all zero is revoked (R369). -/
def State.tenantRec (s : State) (t : Nat) : Option TenantRec :=
  s.tenants.find? fun r => decide (r.tenant = t) && !(r.key.all (· = 0) && r.pub.all (· = 0))

/-- Nonce of a chunk (R274). -/
def chunkIv (b : Bytes) (c : Nat) : Bytes := slice b 32 8 ++ natLe 4 c
/-- Lines of chunk `c` of a baton of `len` lines. -/
def chunkLines (len c : Nat) : Nat := min 4096 (len - 4096 * c)

/-- The causes 1 to 6 and 10 at a header, in the order of Table 11-2 (R275); the bound key slot where there is none. -/
def State.hdrCheck (s : State) (h e : Nat) (x : Entry) (b : Bytes) : Nat ⊕ Nat :=
  let d := x.polder; let sl := x.f 14 13
  let tn := hdrF b 6 2
  if !hdrOk b then .inl 1
  else if tn ≠ s.tenant d then .inl 2
  else match s.boundKey d tn (hdrF b 8 4) with
    | none => .inl 3
    | some k =>
      let sig := match s.tenantRec tn with
        | some r => ed448Verify r.pub (slice b 0 384) (slice b 384 114)
        | none => false
      let dig := (List.range 8).flatMap fun i => natLe 8 (s.reg .EP_DIG [d, sl, i]).toNat
      let own := decide (hdrF b 20 2 = s.fld .EP_SH [d, sl] F.EP_SH_SHARD)
      let n := if hdrCommon b then s.fld .EP_SH [d, sl] F.EP_SH_NCOM else s.fld .EP_SH [d, sl] F.EP_SH_NBAT
      if !sig then .inl 4
      else if decide (hdrF b 12 4 ≠ s.fld .EP_ID [d, sl] F.EP_ID_JOB) || decide (hdrF b 16 4 ≠ s.fld .EP_ID [d, sl] F.EP_ID_EPOCH) ||
          decide (slice b 48 64 ≠ dig) || !(own || hdrCommon b) || decide (hdrF b 24 2 ≠ n) then .inl 5
      else if (sget [] s.verified (epKey d sl)).contains (hdrIndex b) then .inl 6
      else if (s.hub h).recv.any fun r => match r.2 with | some c => decide (c.entry = e) && decide (c.polder = d) | none => false then .inl 10
      else .inr k

/-! ### Info records and delivery (R280) -/

/-- Info records of a hub written, in order for each ring, as far as the rings have room. -/
def State.infoGo (h : Nat) : List (Nat × Nat × Bytes) → List (Nat × Nat × Bytes) → State → State
  | [], keep, s => s.modHub h fun b => { b with info := keep }
  | (t, n, r) :: rs, keep, s =>
    let x := s.tile t
    if keep.any (fun k => decide (k.1 = t) && decide (k.2.1 = n)) || !x.hubRing n || x.ringFull n then State.infoGo h rs (keep ++ [(t, n, r)]) s
    else State.infoGo h rs keep ((s.ringPut t n 0 r).modTile t fun x => x.advTail n 1)
/-- The waiting info records of a hub looked at again. -/
def State.infoFlush (s : State) (h : Nat) : State := State.infoGo h (s.hub h).info [] s

/-- An info record (Table 11-5) for the ring of an entry. -/
def State.infoPut (s : State) (h : Nat) (x : Entry) (ty cause ctx lines : Nat) (hdr : Bytes) : State :=
  let r := [BitVec.ofNat 8 ty, BitVec.ofNat 8 cause, BitVec.ofNat 8 ctx, 0] ++ natLe 4 lines ++ slice hdr 0 48 ++ List.replicate 8 0
  (s.modHub h fun b => { b with info := b.info ++ [(attached h (x.f 2 0), x.f 12 8, r)] }).infoFlush h

/-- Whether an info record of an entry still waits for room: the hub waits with it (R280). -/
def State.infoWaits (s : State) (h : Nat) (x : Entry) : Bool :=
  (s.hub h).info.any fun k => decide (k.1 = attached h (x.f 2 0)) && decide (k.2.1 = x.f 12 8)

/-- Whether an info record of an entry would find room: the hub takes up nothing that could need one before (R280). -/
def State.infoRoom (s : State) (h : Nat) (x : Entry) : Bool :=
  let y := s.tile (attached h (x.f 2 0)); let n := x.f 12 8
  !s.infoWaits h x && y.hubRing n && !y.ringFull n

/-- An entry written at a ring's tail, line by line or whole where it is shorter, and advanced. -/
def State.ringEntry (s : State) (t n : Nat) (b : Bytes) : State :=
  let l := chunks 64 (b.length / 64 + 1) b
  let s := (List.range l.length).foldl (fun s i => s.ringPut t n (64 * i) (l.getD i [])) s
  s.modTile t fun x => x.advTail n 1

/-- A receive context of a hub. -/
def State.recv (s : State) (h c : Nat) : Option RecvCtx := sget none (s.hub h).recv c
/-- A receive context replaced or freed. -/
def State.setRecv (s : State) (h c : Nat) (x : Option RecvCtx) : State := s.modHub h fun b => { b with recv := sput none b.recv c x }
/-- The receive context of an enabled entry, and its number: one of a polder that held the entry before is not it. -/
def State.recvOf (s : State) (h e : Nat) : Option (Nat × RecvCtx) :=
  (s.entry h 3 e).bind fun y =>
    (List.range 16).findSome? fun c => (s.recv h c).bind fun x => if x.entry = e ∧ x.polder = y.polder then some (c, x) else none
/-- The lowest free receive context. -/
def State.freeRecv (s : State) (h : Nat) : Nat := ((List.range 16).find? fun c => (s.recv h c).isNone).getD 15

/-- A rejection recorded: the capture of R300 and the count. -/
def State.batonCount (s : State) (h ctx cause : Nat) (hdr : Bytes) : State :=
  let w := s.reg .BAT_STAT [h]
  let w := if F.BAT_STAT_REJ.get w = 0 then
      F.BAT_STAT_TENANT.set (F.BAT_STAT_INDEX.set (F.BAT_STAT_CTX.set (F.BAT_STAT_CAUSE.set w cause) ctx) (hdrF hdr 22 2)) (hdrF hdr 6 2)
    else w
  ((s.setReg .BAT_STAT [h] w).setFld .BAT_STAT [h] F.BAT_STAT_REJ 1).incSat .BAT_CNT [h] F.BAT_CNT_REJ_CNT 1

/-- A rejection with the END info record of its entry (R275, R280). -/
def State.batonReject (s : State) (h : Nat) (x : Entry) (ctx cause lines : Nat) (hdr : Bytes) : State :=
  (s.batonCount h ctx cause hdr).infoPut h x 2 cause ctx lines hdr

/-- A baton in a context rejected: its context is freed and no further chunk of it is delivered (R275); an entry that is no longer its own gets
no record. -/
def State.ctxReject (s : State) (h c : Nat) (r : RecvCtx) (cause : Nat) : State :=
  let s := (s.setRecv h c none).keyUse r.slot false
  match s.entry h 3 r.entry with
  | some x => if x.polder = r.polder then s.batonReject h x c cause r.delivered r.hdr else s.batonCount h c cause r.hdr
  | none => s.batonCount h c cause r.hdr

/-- A header taken up: rejected with its cause, or a context is opened with its START record (R275, R280). -/
def State.hdrTake (s : State) (h e : Nat) (x : Entry) (port : Option Nat) (b : Bytes) : Bool × State :=
  let c := s.freeRecv h
  match s.hdrCheck h e x b with
  | .inl cause => (false, s.batonReject h x c cause 0 b)
  | .inr k =>
    let r : RecvCtx := ⟨e, x.polder, port, b, k, sget [] s.keys k, [], [], [], 0, [], 0, s.wt, false⟩
    (true, ((s.setRecv h c (some r)).keyUse k true).infoPut h x 1 0 c 0 b)

/-- What ciphertext and tags make of a context: taken up to two chunks in staging (R280); how many bytes were taken, and a cause. -/
def RecvCtx.feed (r : RecvCtx) (b : Bytes) (n : Nat) : Nat → RecvCtx × Nat × Option Nat
  | 0 => (r, n, none)
  | k + 1 =>
    let len := hdrLen r.hdr
    let c := r.tags.length / 16
    let want := 64 * chunkLines len c
    if b.isEmpty then (r, n, none)
    else if r.ct.length < want then
      if 2 ≤ r.staged.length then (r, n, none)
      else
        let t := b.take (want - r.ct.length)
        RecvCtx.feed { r with ct := r.ct ++ t, got := 4096 * c + (r.ct.length + t.length) / 64 } (b.drop t.length) (n + t.length) k
    else if len ≤ 4096 * (c + 1) then (r, n, some 8)
    else
      let t := b.take (16 - r.part.length)
      let p := r.part ++ t
      if p.length < 16 then ({ r with part := p }, n + t.length, none)
      else if p ≠ gcmTag r.key (chunkIv r.hdr c) (slice r.hdr 0 384) r.ct then (r, n + t.length, some 7)
      else
        RecvCtx.feed { r with part := [], ct := [], tags := r.tags ++ p, staged := r.staged ++ [gcmCrypt r.key (chunkIv r.hdr c) r.ct] }
          (b.drop t.length) (n + t.length) k

/-- The checks at a baton's end, with its last tag: LENGTH, TAG, TAGDIG, DUP (R275, R276); the context with its last chunk in staging. -/
def State.endCheck (s : State) (d sl : Nat) (r : RecvCtx) (tag : Bytes) : RecvCtx × Option Nat :=
  let len := hdrLen r.hdr
  let c := r.tags.length / 16
  if decide (len ≤ 4096 * c) || decide (4096 * (c + 1) < len) || decide (r.ct.length < 64 * chunkLines len c) || decide (tag.length ≠ 16) then
    (r, some 8)
  else if tag ≠ gcmTag r.key (chunkIv r.hdr c) (slice r.hdr 0 384) r.ct then (r, some 7)
  else if shake256 (r.tags ++ tag) 64 ≠ slice r.hdr 112 64 then (r, some 9)
  else if (sget [] s.verified (epKey d sl)).contains (hdrIndex r.hdr) then (r, some 6)
  else ({ r with ct := [], tags := r.tags ++ tag, staged := r.staged ++ [gcmCrypt r.key (chunkIv r.hdr c) r.ct], verified := true }, none)

/-- An index reported to its epoch slot, which becomes READY with the last (R276, R283). -/
def State.epVerify (s : State) (d sl i : Nat) : State :=
  let l := sget [] s.verified (epKey d sl)
  let s := { s with verified := sput [] s.verified (epKey d sl) (l ++ [i]) }
  let v := s.fld .EP_SH [d, sl] F.EP_SH_VCNT + 1
  let s := s.setFld .EP_SH [d, sl] F.EP_SH_VCNT v
  if decide (s.epState d sl = 1) && decide (v = s.fld .EP_SH [d, sl] F.EP_SH_NBAT + s.fld .EP_SH [d, sl] F.EP_SH_NCOM) then
    s.setEpState d sl 2
  else s

/-- Verified chunks of a context delivered as whole entries while DRING has room, the last filled with zeros; at the end of a verified
baton its END record, and the context is free (R280). -/
def State.deliver (h c : Nat) : Nat → State → State
  | 0, s => s
  | k + 1, s =>
    match s.recv h c with
    | none => s
    | some r =>
      match s.entry h 3 r.entry with
      | none => s
      | some x =>
        let t := attached h (x.f 2 0); let n := x.f 7 3
        let y := s.tile t
        if s.infoWaits h x || decide (x.polder ≠ r.polder) then s
        else match r.staged with
          | [] =>
            if r.verified && s.infoRoom h x then
              ((s.setRecv h c none).keyUse r.slot false).infoPut h x 2 0 c r.delivered r.hdr
            else s
          | p :: ps =>
            let m := ringEsz (y.ring n)
            if !y.hubRing n || y.ringFull n then s
            else
              let s := s.ringEntry t n (padTo (p.take m) m)
              let rest := p.drop m
              let r := { r with staged := if rest.isEmpty then ps else rest :: ps, delivered := r.delivered + (min m p.length) / 64 }
              State.deliver h c k (s.setRecv h c (some r))

/-- CHUNK_DELIVER (R280). -/
def execChunkDeliver (h : HubIx) (c : CtxIx) (s : State) : Host.Outcome State Fault Refusal :=
  .next (if s.isFrozen then s else State.deliver h c 1048577 (s.infoFlush h))

/-! ### Arriving messages -/

/-- BHDR (R275, R277): once the whole header is there. -/
def State.bhdrGo (s : State) (p cls : Nat) (m : RxMsg) : State :=
  match s.entry p 3 m.entry with
  | none => s.failRx p cls m 2
  | some x =>
    if !m.eom then s.setRx p cls m
    else if decide (m.nbytes ≠ 512) || decide (m.buf.length ≠ 512) then s.failRx p cls m 8
    else if !s.infoRoom p x then s.setRx p cls m
    else
      let r := s.hdrTake p m.entry x (some p) m.buf
      if r.1 then r.2.finishRx p cls m 0 else r.2.failRx p cls m 9

/-- The checks that every baton message passes first: its entry, its tag, the peers permitted (R277). -/
def State.batonStart (s : State) (p : Nat) (m : RxMsg) : Option Nat × State :=
  match s.entry p 3 m.entry with
  | none => (some 2, s)
  | some x =>
    if !s.tagOk m.tenant (attached p (x.f 2 0)) then (some 1, s)
    else if decide (s.peerId p < x.f 31 16) || decide (x.f 47 32 < s.peerId p) then (some 2, s)
    else (none, s)

/-- BHDR. -/
def execBhdr (p : PortIx) (cls : ClassIx) (s : State) : Host.Outcome State Fault Refusal :=
  .next (s.takeRx p cls 8 (fun m s => s.batonStart p m) fun m s => s.bhdrGo p cls m)

/-- BDATA at its context: ciphertext is taken as far as staging has room (R280). A message of a baton already rejected completes with
BATON (R275). -/
def State.bdataGo (s : State) (p cls : Nat) (m : RxMsg) : State :=
  match s.entry p 3 m.entry, s.recvOf p m.entry with
  | some x, some (c, r) =>
    if s.infoWaits p x then s.setRx p cls m
    else
      let f := r.feed m.buf 0 (m.buf.length + 2)
      let r := { f.1 with last := s.wt }
      let m := { m with lines := m.lines + f.2.1 / 64 }
      match f.2.2 with
      | some cause => if s.infoRoom p x then (s.ctxReject p c r cause).failRx p cls m 9 else s
      | none =>
        let s := s.setRecv p c (some r)
        if m.eom && decide (f.2.1 = m.buf.length) then
          if m.pos + m.buf.length = m.nbytes then s.finishRx p cls m 0 else s.failRx p cls m 8
        else s.advanceRx p cls m f.2.1
  | none, _ => s.failRx p cls m 2
  | _, none => s.failRx p cls m 9

/-- BDATA_MESSAGE. -/
def execBdataMessage (p : PortIx) (cls : ClassIx) (s : State) : Host.Outcome State Fault Refusal :=
  .next (s.takeRx p cls 9 (fun m s => s.batonStart p m) fun m s => s.bdataGo p cls m)

/-- A baton's end with its last tag: rejected, or verified with its index reported and counted (R276). -/
def State.batonEnd (s : State) (h c : Nat) (x : Entry) (r : RecvCtx) (tag : Bytes) : Bool × State :=
  let e := s.endCheck x.polder (x.f 14 13) r tag
  match e.2 with
  | some cause => (false, s.ctxReject h c r cause)
  | none =>
    (true, ((s.setRecv h c (some { e.1 with last := s.wt })).epVerify x.polder (x.f 14 13) (hdrIndex r.hdr)).incWrap .BAT_CNT [h]
      F.BAT_CNT_OK_CNT 1)

/-- BEND at its context. -/
def State.bendGo (s : State) (p cls : Nat) (m : RxMsg) : State :=
  match s.entry p 3 m.entry, s.recvOf p m.entry with
  | some x, some (c, r) =>
    if !m.eom || !s.infoRoom p x then s.setRx p cls m
    else
      let e := s.batonEnd p c x r m.buf
      if e.1 then e.2.finishRx p cls m 0 else e.2.failRx p cls m 9
  | none, _ => s.failRx p cls m 2
  | _, none => s.failRx p cls m 9

/-- BEND (R275, R276). -/
def execBend (p : PortIx) (cls : ClassIx) (s : State) : Host.Outcome State Fault Refusal :=
  .next (s.takeRx p cls 10 (fun m s => s.batonStart p m) fun m s => s.bendGo p cls m)

/-- BABORT (R275): cause 11; the message completes with BATON, as one without a context does. -/
def execBabort (p : PortIx) (cls : ClassIx) (s : State) : Host.Outcome State Fault Refusal :=
  .next (s.takeRx p cls 11 (fun m s => s.batonStart p m) fun m s =>
    match s.entry p 3 m.entry, s.recvOf p m.entry with
    | some x, some (c, r) => if s.infoRoom p x then (s.ctxReject p c r 11).failRx p cls m 9 else s.setRx p cls m
    | _, _ => s.failRx p cls m 9)

/-- Whether a message of a context's baton waits at its port, or read data of its fetch in the host hub (R281). -/
def State.ctxFed (s : State) (r : RecvCtx) : Bool :=
  match r.port with
  | some p => (s.lport p).rx.any fun e => e.2.any fun m => decide (8 ≤ m.op) && decide (m.op ≤ 11) && decide (m.entry = r.entry)
  | none => s.slow.any fun j => decide (j.ctx = some r.entry) && decide (j.polder = r.polder) && !j.buf.isEmpty

/-- Whether the port a context's baton arrives at is HELD. -/
def State.ctxHeld (s : State) (r : RecvCtx) : Bool :=
  match r.port with
  | some p => decide (s.portState p = 5)
  | none => false

/-- BATON_CONTEXT_TIMEOUT (R279): 10 ms without a message, not counted while the port is HELD. -/
def execBatonContextTimeout (h : HubIx) (c : CtxIx) (s : State) : Host.Outcome State Fault Refusal :=
  .next (match s.recv h c with
    | none => s
    | some r =>
      if r.verified || s.ctxHeld r || s.ctxFed r then s
      else
        let s := s.toWt (r.last + nsWt 10000000)
        match s.recv h c with
        | none => s
        | some r => s.ctxReject h c r 11)

/-! ### Requests (R278) -/

/-- A send context. -/
def State.sendCtx (s : State) (h k : Nat) : Option SendCtx := sget none (s.hub h).send k
/-- A send context replaced or freed. -/
def State.setSend (s : State) (h k : Nat) (x : Option SendCtx) : State := s.modHub h fun b => { b with send := sput none b.send k x }

/-- BOPEN (R278): TENANT and KEY are checked at the source. -/
def execBopen (h : HubIx) (s : State) : Host.Outcome State Fault Refusal :=
  .next (s.takeReq h 8 fun q s =>
    if decide (q.cls ≠ 2) || (s.sendCtx h q.rank).isSome then s.reqDone h q 8
    else s.reqLines h q 8 fun b s =>
      let d := q.polder.getD 8
      let tn := hdrF b 6 2
      if tn ≠ s.tenant d then s.reqDone h q 9
      else match s.boundKey d tn (hdrF b 8 4) with
        | none => s.reqDone h q 9
        | some k =>
          let c : SendCtx := ⟨b, k, sget [] s.keys k, q.tile, q.path, q.entry, 0, [], q.polder⟩
          ((s.setSend h q.rank (some c)).keyUse k true).submit q.path (s.reqMsg h q 8 0 q.rank 0 0 b false false))

/-- Plaintext lines encrypted where a send context stands, each full chunk but the last followed by its tag. -/
def SendCtx.encrypt (c : SendCtx) : List Bytes → Bytes → SendCtx × Bytes
  | [], out => (c, out)
  | l :: ls, out =>
    let k := c.sent / 4096
    let e := aesCtr (aesKeys c.key) (chunkIv c.hdr k) (2 + c.ct.length / 16) (chunks 16 5 l)
    let ct := c.ct ++ e
    let c1 := { c with sent := c.sent + 1, ct := ct }
    if decide ((c.sent + 1) % 4096 = 0) && decide (c.sent + 1 ≠ hdrLen c.hdr) then
      SendCtx.encrypt { c1 with ct := [] } ls (out ++ e ++ gcmTag c.key (chunkIv c.hdr k) (slice c.hdr 0 384) ct)
    else SendCtx.encrypt c1 ls (out ++ e)

/-- A baton message of an open context: its own path and entry (Table 11-4). -/
def State.ctxMsg (s : State) (h : Nat) (q : HubReq) (c : SendCtx) (op : Nat) (data : Bytes) : State :=
  let m := s.reqMsg h q op 0 q.rank 0 0 data false false
  s.submit c.path { m with w0 := BitVec.ofNat 64 (m.w0.toNat - q.entry * 2 ^ 54 + c.entry * 2 ^ 54) }

/-- BDATA of the requests. -/
def execBdataRequest (h : HubIx) (s : State) : Host.Outcome State Fault Refusal :=
  .next (s.takeReq h 9 fun q s =>
    match s.sendCtx h q.rank with
    | none => s.reqDone h q 8
    | some c =>
      if q.cls ≠ 2 then s.reqDone h q 8
      else s.reqLines h q (q.cnt + 1) fun b s =>
        let r := c.encrypt (chunks 64 (q.cnt + 2) b) []
        (s.setSend h q.rank (some r.1)).ctxMsg h q c 9 r.2)

/-- BCLOSE: BEND with the last tag once LEN lines are sent, or BABORT; the context is free. -/
def execBclose (h : HubIx) (s : State) : Host.Outcome State Fault Refusal :=
  .next (s.takeReq h 10 fun q s =>
    match s.sendCtx h q.rank with
    | none => s.reqDone h q 8
    | some c =>
      let abort := bit q.aux 0
      if decide (q.cls ≠ 2) || (!abort && decide (c.sent ≠ hdrLen c.hdr)) then s.reqDone h q 8
      else
        let s := (s.setSend h q.rank none).keyUse c.slot false
        if abort then s.ctxMsg h q c 11 []
        else s.ctxMsg h q c 10 (gcmTag c.key (chunkIv c.hdr ((c.sent - 1) / 4096)) (slice c.hdr 0 384) c.ct))

/-! ### ABANDON (R287) -/

/-- The entries of a slot on a hub disabled and their contexts freed with ABORT. -/
def State.dropEntries (s : State) (d sl : Nat) (h : Nat) : State :=
  let gone := fun x : Entry => decide (x.polder = d) && decide (x.f 14 13 = sl)
  let cs := ((s.hub h).dropSlot gone).2
  let s := cs.foldl (fun s c => s.ctxReject h c.1 c.2 11) s
  s.modHub h fun b => (b.dropSlot gone).1

/-- ABANDON: a LOADING or READY slot returns to EMPTY. -/
def State.epAbandon (s : State) (d sl : Nat) : State :=
  if decide (s.epState d sl = 1) || decide (s.epState d sl = 2) then
    (List.range 17).foldl (fun s h => s.dropEntries d sl h) (s.setEpState d sl 0)
  else s.epRej d

/-- EPOCH_ABANDON. -/
def execEpochAbandon (d : PolderIx) (sl : SlotIx) (s : State) : Host.Outcome State Fault Refusal := .next (s.epAbandon d sl)

/-- EP_CTL (R283, R285, R287, R299): management core only. -/
def State.wrEpCtl (src : Writer) (d : Nat) (v : W64) (s : State) : State :=
  if !isMgmt src then s
  else
    let sl := F.EP_CTL_SLOT.get v
    match F.EP_CTL_OP.get v with
    | 1 => s.epOpen d sl
    | 2 => s.epSwitch d sl (F.EP_CTL_ARG.get v)
    | 3 => s.epAbandon d sl
    | _ => s.epRej d

end Sys2Proof.Machine
end

