-- ==== Sys2Proof/Machine/Heat.lean ====
section
/-! DEFINITION. The heat unit (R292, R293, R299): sketches and candidate lists. -/
namespace Sys2Proof.Machine

/-- A sketch. -/
def State.sketch (s : State) (n : Nat) : Sketch := sget Sketch.init s.sketches n
/-- A sketch replaced. -/
def State.setSketch (s : State) (n : Nat) (x : Sketch) : State := { s with sketches := sput Sketch.init s.sketches n x }

/-- The multipliers A_0 to A_3. -/
def heatA (i : Nat) : Nat :=
  ([0x9E3779B97F4A7C15, 0xC2B2AE3D27D4EB4F, 0x165667B19E3779F9, 0x27D4EB2F165667C5] : List Nat).getD i 0
/-- The counter of row `r` in sketch row `i`. -/
def heatIx (i r : Nat) : Nat := 4096 * i + r * heatA i % 2 ^ 64 / 2 ^ 52

/-- The estimate of a row: the smallest of its four counters. -/
def Sketch.est (x : Sketch) (r : Nat) : Nat :=
  min (min (sget 0 x.cnt (heatIx 0 r)) (sget 0 x.cnt (heatIx 1 r))) (min (sget 0 x.cnt (heatIx 2 r)) (sget 0 x.cnt (heatIx 3 r)))

/-- One access of a row counted; each counter saturates. -/
def Sketch.count (x : Sketch) (r : Nat) : Sketch :=
  [0, 1, 2, 3].foldl (fun x i => { x with cnt := sput 0 x.cnt (heatIx i r) (min 0xFFFF (sget 0 x.cnt (heatIx i r) + 1)) }) x

/-- The entry a new candidate would replace: the lowest free one, else that of the smallest estimate, of the highest row among equals
(R293). -/
def Sketch.victim (x : Sketch) : Nat :=
  match (List.range 64).find? fun e => (sget none x.cand e).isNone with
  | some e => e
  | none => (List.range 64).foldl (fun b e =>
      match sget none x.cand b, sget none x.cand e with
      | some (rb, eb), some (re, ee) => if decide (ee < eb) || (decide (ee = eb) && decide (rb < re)) then e else b
      | _, _ => b) 0

/-- A slow-tier access of a row in the candidate list (R293). -/
def Sketch.propose (x : Sketch) (r : Nat) : Sketch :=
  let e := x.est r
  match (List.range 64).find? fun k => match sget none x.cand k with | some (q, _) => decide (q = r) | none => false with
  | some k => { x with cand := sput none x.cand k (some (r, e)) }
  | none =>
    let k := x.victim
    match sget none x.cand k with
    | none => { x with cand := sput none x.cand k (some (r, e)) }
    | some (_, f) => if f < e then { x with cand := sput none x.cand k (some (r, e)) } else x

/-- Every counter shifted right by one. -/
def Sketch.halve (x : Sketch) : Sketch := { x with cnt := x.cnt.filterMap fun c => if c.2 / 2 = 0 then none else some (c.1, c.2 / 2) }
/-- A candidate entry removed. -/
def Sketch.takeCand (x : Sketch) (e : Nat) : Sketch := { x with cand := sput none x.cand e none }

/-- The sketch bound to a polder and table. -/
def State.sketchOf (s : State) (d table : Nat) : Option Nat :=
  (List.range 64).find? fun n => decide (s.fld .HEAT_TBL [n] F.HEAT_TBL_EN = 1) && decide (s.fld .HEAT_TBL [n] F.HEAT_TBL_POLDER = d) &&
    decide (s.fld .HEAT_TBL [n] F.HEAT_TBL_TABLE = table)

/-- HEAT_IN (R292): a record of a tile reaches the heat unit. -/
def execHeatIn (t : TileIx) (v : W64) (s : State) : Host.Outcome State Fault Refusal :=
  .next (if s.isFrozen then s else
    let s := { s with heats := s.heats.erase (t.val, v) }
    match (s.tilePolder t).bind fun d => s.sketchOf d (F.HEAT_IN_TABLE.get v) with
    | none => s.incSat .HEAT_CNT [] F.HEAT_CNT_DROP_CNT 1
    | some n =>
      let r := F.HEAT_IN_ROW.get v
      let x := (s.sketch n).count r
      (s.setSketch n (if F.HEAT_IN_SLOW.get v = 1 then x.propose r else x)).incWrap .HEAT_CNT [] F.HEAT_CNT_IN_CNT 1)

/-- HEAT_TBL (R299): performed while EN is 0 or to clear EN; setting EN clears the sketch. Management core only. -/
def State.wrHeatTbl (src : Writer) (n : Nat) (v : W64) (s : State) : State :=
  if !isMgmt src then s
  else if decide (s.fld .HEAT_TBL [n] F.HEAT_TBL_EN = 1) && decide (F.HEAT_TBL_EN.get v = 1) then
    s.epRej (s.fld .HEAT_TBL [n] F.HEAT_TBL_POLDER)
  else
    let s' := s.write .HEAT_TBL [n] v
    if F.HEAT_TBL_EN.get v = 1 then s'.setSketch n Sketch.init else s'

/-- HEAT_TBL_WRITE. -/
def execHeatTblWrite (src : Writer) (n : SketchIx) (v : W64) (s : State) : Host.Outcome State Fault Refusal :=
  .next (s.chipBy src (State.wrHeatTbl src n v))

/-- HEAT_CTL (Table 11-15): TAKE the entry that HEAT_SEL names, CLEAR or HALVE sketch SK. -/
def State.wrHeatCtl (src : Writer) (v : W64) (s : State) : State :=
  if !isMgmt src then s
  else
    let k := F.HEAT_CTL_SK.get v
    let s := if F.HEAT_CTL_TAKE.get v = 1 then
        let n := s.fld .HEAT_SEL [] F.HEAT_SEL_SK
        s.setSketch n ((s.sketch n).takeCand (s.fld .HEAT_SEL [] F.HEAT_SEL_ENTRY))
      else s
    let s := if F.HEAT_CTL_CLEAR.get v = 1 then s.setSketch k Sketch.init else s
    if F.HEAT_CTL_HALVE.get v = 1 then s.setSketch k (s.sketch k).halve else s

/-- HEAT_TAKE: a write of HEAT_CTL with TAKE. -/
def execHeatTake (src : Writer) (v : W64) (s : State) : Host.Outcome State Fault Refusal :=
  .next (s.chipBy src (State.wrHeatCtl src (F.HEAT_CTL_TAKE.set v 1)))
/-- HEAT_CLEAR: a write of HEAT_CTL with CLEAR. -/
def execHeatClear (src : Writer) (v : W64) (s : State) : Host.Outcome State Fault Refusal :=
  .next (s.chipBy src (State.wrHeatCtl src (F.HEAT_CTL_CLEAR.set v 1)))
/-- HEAT_HALVE: a write of HEAT_CTL with HALVE. -/
def execHeatHalve (src : Writer) (v : W64) (s : State) : Host.Outcome State Fault Refusal :=
  .next (s.chipBy src (State.wrHeatCtl src (F.HEAT_CTL_HALVE.set v 1)))

/-- HEAT_QRY: the estimate of a row stands in HEAT_EST. -/
def State.wrHeatQry (src : Writer) (v : W64) (s : State) : State :=
  if !isMgmt src then s
  else
    let e := (s.sketch (F.HEAT_QRY_SK.get v)).est (F.HEAT_QRY_ROW.get v)
    s.setReg .HEAT_EST [] (F.HEAT_EST_VALID.set (F.HEAT_EST_EST.set 0 e) 1)

/-- HEAT_QRY. -/
def execHeatQry (src : Writer) (v : W64) (s : State) : Host.Outcome State Fault Refusal := .next (s.chipBy src (State.wrHeatQry src v))

/-- What HEAT_CAND reads: the entry that HEAT_SEL names. -/
def State.heatCand (s : State) : W64 :=
  match sget none (s.sketch (s.fld .HEAT_SEL [] F.HEAT_SEL_SK)).cand (s.fld .HEAT_SEL [] F.HEAT_SEL_ENTRY) with
  | some (r, e) => F.HEAT_CAND_V.set (F.HEAT_CAND_EST.set (F.HEAT_CAND_ROW.set 0 r) e) 1
  | none => 0

end Sys2Proof.Machine
end

