-- ==== Sys2Proof/Machine/Receipt.lean ====
section
/-! DEFINITION. Receipts and seals (R316, R323 to R331). -/
namespace Sys2Proof.Machine

/-! ### The receipt key -/

/-- A private key of the chip from CDI (Table 16-1). -/
def State.privKey (s : State) (label : String) : Bytes := shake256 (ascii label ++ s.boot.cdi) 57
/-- A signature under a private key of the chip. -/
def State.sign (s : State) (label : String) (msg : Bytes) : Bytes := ed448Sign (s.privKey label) msg
/-- The life-cycle code (Table 16-7). -/
def State.lc (s : State) : Nat := s.fuses.lc
/-- The device ID as bytes. -/
def devId : Bytes := natLe 8 Config.deviceId.toNat

/-! ### The ring and the chain -/

/-- Whether a ring of a tile serves as receipt ring, R325. -/
def State.rcptRingOk (s : State) (t n : Nat) : Bool :=
  let x := s.tile t
  x.hubRing n && decide (ringEsz (x.ring n) = 256) && decide (F.RING_CFG_CONS.get (x.ring n) = 8) && decide (F.RING_CFG_HOSTR.get (x.ring n) = 1)

/-- The receipt ring of a polder, if receipts are enabled. -/
def State.rcptRing (s : State) (d : Nat) : Option (Nat × Nat) :=
  if s.fld .RCPT_CFG [d] F.RCPT_CFG_EN = 1 then some (s.fld .RCPT_CFG [d] F.RCPT_CFG_TILE, s.fld .RCPT_CFG [d] F.RCPT_CFG_RING) else none

/-- Whether the receipt ring of a polder has room. -/
def State.rcptRoom (s : State) (d : Nat) : Bool :=
  match s.rcptRing d with
  | some (t, n) => s.rcptRingOk t n && !(s.tile t).ringFull n
  | none => false

/-- An entry written into the receipt ring of a polder. -/
def State.rcptPut (s : State) (d : Nat) (e : Bytes) : State :=
  match s.rcptRing d with
  | some (t, n) => s.ringEntry t n (padTo e 256)
  | none => s

/-- RCPT_HEAD as bytes. -/
def State.rcptHead (s : State) (d : Nat) : Bytes := (List.range 4).flatMap fun i => natLe 8 (s.reg .RCPT_HEAD [d, i]).toNat
/-- RCPT_HEAD written. -/
def State.setHead (s : State) (d : Nat) (b : Bytes) : State :=
  (List.range 4).foldl (fun s i => s.setReg .RCPT_HEAD [d, i] (BitVec.ofNat 64 (leNat (slice b (8 * i) 8)))) s
/-- SEQ of the next receipt. -/
def State.rcptSeq (s : State) (d : Nat) : Nat := (s.reg .RCPT_SEQ [d]).toNat

/-- The chain restarts as a polder enters RUNNING: SEQ 0 and the anchor (R326). -/
def State.chainStart (s : State) (d : Nat) : State :=
  let a := shake256 (devId ++ [BitVec.ofNat 8 d] ++ natLe 2 (s.tenant d) ++ natLe 9 s.wt) 32
  ((s.setChain d ⟨a, s.wt, 0, []⟩).setReg .RCPT_SEQ [d] 0).setHead d a

/-- Bytes 0 to 7 of a receipt or seal (Tables 13-2 and 13-3). -/
def State.rcptStart (s : State) (d ty : Nat) : Bytes :=
  [BitVec.ofNat 8 ty, 1, BitVec.ofNat 8 (s.app .DET_CFG [d] F.DET_CFG_DET), BitVec.ofNat 8 d] ++ natLe 2 (s.tenant d) ++ [0, 0]

/-- A seal over [start, END) of the chain (Table 13-3); in RETURNED the chip signs none (R379). -/
def State.sealBytes (s : State) (d ty mseq endWt : Nat) : Bytes :=
  let c := s.chain d
  let b := s.rcptStart d ty ++ natLe 8 mseq ++ natLe 8 c.first ++ natLe 8 (s.rcptSeq d - c.first) ++ natLe 9 c.start ++ natLe 9 endWt ++
    List.replicate 6 0 ++ devId ++ s.rcptHead d ++ padTo c.anchor 32
  padTo (b ++ s.sign "ZN4000 RECEIPT" b) 256

/-- The next seal interval begins at `endWt`. -/
def State.sealNext (s : State) (d endWt : Nat) : State :=
  let c := s.chain d
  s.setChain d { c with start := endWt, first := s.rcptSeq d }

/-- A seal written, if the ring has room. -/
def State.sealPut (s : State) (d mseq endWt : Nat) : State :=
  if s.rcptRoom d then ((s.rcptPut d (s.sealBytes d 2 mseq endWt)).sealNext d endWt) else s

/-- The oldest due seal of a polder written, once the receipts stamped before its end are (R325, R327). -/
def State.sealDue (s : State) (d : Nat) : State :=
  let c := s.chain d
  match c.due with
  | [] => s
  | (e, mseq) :: ds =>
    if (s.rcptJobs.any fun j => decide (j.polder = d) && decide (j.wt < e)) || !s.rcptRoom d then s
    else (s.setChain d { c with due := ds }).sealPut d mseq e

/-- SEAL (R327): at the end of the meter interval. -/
def execSeal (d : PolderIx) (s : State) : Host.Outcome State Fault Refusal :=
  .next (if (s.chain d).due.isEmpty then (s.toNs s.windowEnd).sealDue d else s.sealDue d)

/-! ### Requests (R323, R324) -/

/-- The fields of an extent word: lines, first line, tile. -/
def extent (w : Nat) : Nat × Nat × Nat := (bits w 42 27 + 1, bits w 26 11, bits w 10 0)

/-- Whether the record of a request is legal (cause 1). -/
def rcptRecOk (b : Bytes) : Bool :=
  let nin := hdrF b 8 1; let nout := hdrF b 9 1
  let unused := fun i0 k => (List.range 3).all fun i => decide (i < k) || decide (hdrF b (i0 + 8 * i) 8 = 0)
  decide (1 ≤ nin) && decide (nin ≤ 3) && decide (1 ≤ nout) && decide (nout ≤ 3) && decide (hdrF b 10 6 = 0) && unused 16 nin && unused 40 nout &&
    (List.range 6).all fun i => decide (bits (hdrF b (16 + 8 * i) 8) 63 43 = 0)

/-- The extents of a record: inputs or outputs. -/
def rcptExtents (b : Bytes) (out : Bool) : List (Nat × Nat × Nat) :=
  (List.range (hdrF b (if out then 9 else 8) 1)).map fun i => extent (hdrF b ((if out then 40 else 16) + 8 * i) 8)

/-- A refused receipt request: the capture of R330, and its completion with E = 1. -/
def State.rcptRefuse (s : State) (q : HubReq) (cause : Nat) : State :=
  match q.polder with
  | none => s.hostTell q false
  | some d =>
    let s := if s.fld .RCPT_STAT [d] F.RCPT_STAT_REJ = 0 then s.setFld .RCPT_STAT [d] F.RCPT_STAT_CAUSE cause else s
    ((s.setFld .RCPT_STAT [d] F.RCPT_STAT_REJ 1).incSat .RCPT_STAT [d] F.RCPT_STAT_REJ_CNT 1).hostTell q false

/-- The bytes of extents read as unit 0x8, or none on a failed line check. -/
def State.readExtents : List (Nat × Nat × Nat) → State → Bytes → Option Bytes × State
  | [], s, out => (some out, s)
  | (n, l, t) :: es, s, out =>
    match s.freeLoad t (64 * l) (64 * n) 8 n with
    | .ok b s => State.readExtents es s (out ++ b)
    | .crc s => (none, s)
    | .live s => (none, s)

/-- A request whose record is read: the causes 1 to 4, then the extents are read and hashed. -/
def State.rcptGo (s : State) (q : HubReq) (d : Nat) (b : Bytes) : State :=
  let ins := rcptExtents b false; let outs := rcptExtents b true
  let bad := fun e : Nat × Nat × Nat => decide (1152 ≤ e.2.2) || decide (s.tilePolder e.2.2 ≠ some d) || decide (65536 < e.2.1 + e.1)
  let ep := hdrF b 4 4
  if decide (q.offh ≠ 0) || decide (q.nl ≠ 0) || decide (q.offl ≠ 0) || !q.hrsvd || !rcptRecOk b then s.rcptRefuse q 1
  else if (ins ++ outs).any bad then s.rcptRefuse q 2
  else match (List.range 4).find? fun sl => decide (s.epState d sl ≠ 0) && decide (s.fld .EP_ID [d, sl] F.EP_ID_EPOCH = ep) with
    | none => s.rcptRefuse q 3
    | some sl =>
      if decide (s.fld .RCPT_CFG [d] F.RCPT_CFG_EN = 0) || decide (s.polderState d ≠ 2) then s.rcptRefuse q 4
      else
        let i := State.readExtents ins s []
        let o := State.readExtents outs i.2 []
        match i.1, o.1 with
        | some bi, some bo =>
          let dig := (List.range 8).flatMap fun k => natLe 8 (s.reg .EP_DIG [d, sl, k]).toNat
          { o.2 with rcptJobs := o.2.rcptJobs ++ [⟨q, d, hdrF b 0 4, ep, shake256 bi 32, shake256 bo 32, dig, o.2.wt⟩] }
        | _, _ => o.2.hostTell q false

/-- RECEIPT (R323, R324): the request at the front of the receipt engine's queue. -/
def execReceipt (s : State) : Host.Outcome State Fault Refusal :=
  .next (if s.isFrozen then s
    else match (s.hub 16).reqs.find? fun q => decide (q.hop = 12) with
      | none => s
      | some q =>
        let s := s.modHub 16 fun x => { x with reqs := x.reqs.erase q }
        match q.polder with
        | none => s.hostTell q false
        | some d =>
          if decide (1152 ≤ q.htile) || decide (s.tilePolder q.htile ≠ some d) then s.rcptRefuse q 2
          else match s.freeLoad q.htile (64 * q.hline) 64 8 1 with
            | .ok b s => s.rcptGo q d b
            | .crc s => s.hostTell q false
            | .live s => s)

/-- A receipt (Table 13-2). -/
def State.rcptBytes (s : State) (j : RcptJob) : Bytes :=
  let d := j.polder
  padTo (s.rcptStart d 1 ++ natLe 8 (s.rcptSeq d) ++ natLe 4 j.batch ++ natLe 4 j.epoch ++ natLe 9 j.wt ++ List.replicate 7 0 ++ devId ++
    ((List.range 4).flatMap fun i => natLe 8 (s.reg .RCPT_PROG [d, i]).toNat) ++ padTo j.epdig 64 ++ padTo j.inp 32 ++ padTo j.outp 32 ++
    s.rcptHead d ++ natLe 8 (s.reg .RCPT_UPD [d]).toNat) 256

/-- A receipt written and chained, and its request completed (R325, R326). -/
def State.rcptForm (s : State) (j : RcptJob) : State :=
  let d := j.polder
  let b := s.rcptBytes j
  let s := { s with rcptJobs := s.rcptJobs.erase j }.rcptPut d b
  ((s.setReg .RCPT_SEQ [d] (s.reg .RCPT_SEQ [d] + 1)).setHead d (shake256 (b.take 248) 32)).hostTell j.req true

/-- Whether a receipt is the first of its polder. -/
def State.rcptFirst (s : State) (j : RcptJob) : Bool := decide (s.rcptJobs.find? (fun k => decide (k.polder = j.polder)) = some j)

/-- RECEIPT_FORM (R325, R327): the oldest receipt whose ring has room, the due seal of an earlier interval before it. -/
def execReceiptForm (s : State) : Host.Outcome State Fault Refusal :=
  .next (if s.isFrozen then s
    else match s.rcptJobs.find? fun j => s.rcptFirst j && s.rcptRoom j.polder with
      | none => s
      | some j =>
        let d := j.polder
        match (s.chain d).due with
        | (e, _) :: _ => if e ≤ j.wt then s.sealDue d else s.rcptForm j
        | [] => s.rcptForm j)

/-- RCPT_CFG (R329): management core only, while the polder is not RUNNING; EN checks the ring. -/
def State.wrRcptCfg (src : Writer) (d : Nat) (v : W64) (s : State) : State :=
  if !isMgmt src then s
  else
    let t := F.RCPT_CFG_TILE.get v
    let ok := decide (s.polderState d ≠ 2) &&
      (decide (F.RCPT_CFG_EN.get v = 0) || (decide (t < 1152) && s.rcptRingOk t (F.RCPT_CFG_RING.get v)))
    if ok then s.write .RCPT_CFG [d] v
    else s.setFld .RCPT_STAT [d] F.RCPT_STAT_CFG_REJ 1

/-- RCPT_PROG (R329). -/
def State.wrRcptProg (src : Writer) (d i : Nat) (v : W64) (s : State) : State :=
  if !isMgmt src then s
  else if s.polderState d = 2 then s.setFld .RCPT_STAT [d] F.RCPT_STAT_CFG_REJ 1
  else s.setReg .RCPT_PROG [d, i] v

/-- RCPT_CFG_WRITE. -/
def execRcptCfgWrite (src : Writer) (d : PolderIx) (v : W64) (s : State) : Host.Outcome State Fault Refusal :=
  .next (s.chipBy src (State.wrRcptCfg src d v))

end Sys2Proof.Machine
end

