-- ==== Sys2Proof/Machine/Polder.lean ====
section
/-! DEFINITION. Polders, meters, quarantine and the wipe (R332 to R334, R339 to R347). -/
namespace Sys2Proof.Machine

/-! ### Entries for the sessions (R346, R360, R362) -/

/-- A statement or certificate kept until the operator acknowledges it (R360, R362), and delivered to every session entitled to it. -/
def State.retain (s : State) (d : Option Nat) (ty : Nat) (b : Bytes) : State :=
  { s with retained := s.retained ++ [(d, ty, b)] }.postAll d (eventEntry ty [] 0 b)

/-! ### Meter statements (R343 to R346) -/

/-- The statement window replaced. -/
def State.setMeter (s : State) (d : Nat) (x : Option Meter) : State := { s with meters := sput none s.meters d x }
/-- A polder's meters start with its entry to ASSIGNED (R343). -/
def State.meterStart (s : State) (d : Nat) : State := s.setMeter d (some ⟨s.wt, s.mtr d, true⟩)

/-- Bytes 0 to 205 of a statement up to `endWt` (Table 14-6), MSEQ left zero, by the meters, regions and interval of its end; ENERGY in whole mJ
of the total, so that what is left carries into the next. -/
def State.stmtBody (s : State) (d : Nat) (m : Meter) (endWt flags : Nat) (now : List Nat) (mask len : Nat) : Bytes :=
  let v := fun i => now.getD i 0 - m.base.getD i 0
  let e := now.getD 2 0 / 1000 - m.base.getD 2 0 / 1000
  padTo ([4, 1, BitVec.ofNat 8 (flags + if m.first then 1 else 0), BitVec.ofNat 8 d] ++ natLe 2 (s.tenant d) ++
    natLe 2 len ++ natLe 8 0 ++ devId ++ natLe 9 m.start ++ natLe 9 endWt ++ natLe 3 mask ++ [0, 0, 0] ++
    natLe 8 (v 0) ++ natLe 8 (v 1) ++ natLe 8 e ++ natLe 8 (v 3) ++ natLe 8 (v 4) ++ (List.range 10).flatMap fun i => natLe 8 (v (5 + i))) 206

/-- A statement numbered, flagged GAP where that is due, and signed under the meter key (R346). -/
def State.stmtSign (s : State) (d : Nat) (b : Bytes) : Bytes × State :=
  let gap := s.gaps.contains d
  let b := if gap then b.set 2 (byteAt b 2 ||| 4) else b
  let mseq := s.reg .MTR [d, 15]
  let b := b.take 8 ++ natLe 8 mseq.toNat ++ b.drop 16
  (b ++ s.sign "ZN4000 METER" b, { s.setReg .MTR [d, 15] (mseq + 1) with gaps := s.gaps.filter (· ≠ d) })

/-- A statement of a polder up to `endWt`; its next window starts there. In RETURNED the chip signs none (R379). -/
def State.statement (s : State) (d endWt flags : Nat) (now : List Nat) (mask len : Nat) : Option Bytes × State :=
  match s.meter d with
  | none => (none, s)
  | some m =>
    let next := s.setMeter d (some ⟨endWt, now, false⟩)
    if s.lc = 3 then (none, next)
    else let r := next.stmtSign d (s.stmtBody d m endWt flags now mask len); (some r.1, r.2)

/-- The statement of a polder for a window that has ended, if it is owed one, signed and retained. -/
def State.windowSign (s : State) (d : Nat) (w : Window) : State :=
  if (s.owed d).contains w then
    let r := s.statement d (nsWt w.ends) 0 (w.meters.getD d []) (w.masks.getD d 0) w.len
    match r.1 with
    | some b => r.2.retain (some d) 3 b
    | none => r.2
  else s

/-- The final statement of a polder up to now. -/
def State.finalStatement (s : State) (d : Nat) : Option Bytes × State :=
  s.statement d s.wt 2 (s.mtr d) (s.app .POLDER_CFG [d] F.POLDER_CFG_RMASK) (s.app .METER_CFG [] F.METER_CFG_INTERVAL)

/-- Time goes on until a meter window has ended whose statements are not signed; where wall time has been set past the end of the running one, it
ends now. -/
def State.windowReady (s : State) : State :=
  if s.windows.isEmpty then (let a := s.toNs s.windowEnd; if a.windows.isEmpty then State.closeWindow a a else a) else s

/-- METER_STATEMENT (R345, R346): the statements of the oldest window that has ended, for every polder that was not FREE in it. -/
def execMeterStatement (s : State) : Host.Outcome State Fault Refusal :=
  .next (let s := s.windowReady
    let s := ((s.windows.headD ⟨0, 0, [], [], []⟩).spans).foldl (fun s d => if s.domOn d then s.toFc d ((s.dom d).fc + 1) else s) s
    match s.windows with
    | [] => s
    | w :: _ =>
      let s := (List.range 8).foldl (fun s d => s.windowSign d w) s
      { s with windows := s.windows.drop 1 })

/-- Energy in 1/1,152 µJ charged to a polder, or (8) to no one (R344). -/
def State.charge (s : State) (d n : Nat) : State :=
  let u := sget 0 s.energySub d + n
  let s := { s with energySub := sput 0 s.energySub d (u % 1152) }
  if d < 8 then s.setReg .MTR [d, 2] (BitVec.ofNat 64 ((s.reg .MTR [d, 2]).toNat + u / 1152))
  else s.setFld .METER_IDLE [] F.METER_IDLE_UJ (s.fld .METER_IDLE [] F.METER_IDLE_UJ + u / 1152)

/-- POWER_MONITOR_SAMPLE (R344): the region energies of a microsecond in µJ go to the regions' polders; the rest is split among the
tiles. A polder is charged from ASSIGNED until Q; what is charged to no polder is counted in METER_IDLE (Table 14-11). -/
def execPowerMonitorSample (uj : List (RegionIx × Nat)) (rest : Nat) (s : State) : Host.Outcome State Fault Refusal :=
  .next ((List.range 24).foldl (fun s r =>
    let own := ((uj.filter fun e => decide (e.1.val = r)).map Prod.snd).foldl (· + ·) 0
    match s.polderOf r with
    | some d => s.charge (if s.polderState d = 3 then 8 else d) (own * 1152 + rest * 48)
    | none => s.charge 8 (own * 1152 + rest * 48)) s)

/-! ### POLDER_CTL (R333, R339) -/

/-- The state of a polder changes; POLDER_WT holds the wt (R333). -/
def State.setPolderState (s : State) (d v : Nat) : State :=
  (s.setFld .POLDER_STAT [d] F.POLDER_STAT_STATE v).setReg .POLDER_WT [d] (BitVec.ofNat 64 s.ns)
/-- An ignored POLDER_CTL command. -/
def State.polderRej (s : State) (d : Nat) : State := s.setFld .POLDER_STAT [d] F.POLDER_STAT_CFG_REJ 1

/-- START (R333): ASSIGNED to RUNNING; the receipt chain restarts (R326). -/
def State.polderStart (s : State) (d : Nat) : State :=
  if decide (s.polderState d = 1) && (sget none s.quarAt d).isNone then (s.setPolderState d 2).chainStart d else s.polderRej d

/-- KILL or FINISH (R333, R339): Q is 64 fc after the command's arrival; a further one joins. -/
def State.polderEnd (s : State) (d : Nat) (kill : Bool) : State :=
  if decide (s.polderState d = 2) || (kill && decide (s.polderState d = 1)) then
    s.endAt d
  else if (sget none s.quarAt d).isSome then s
  else s.polderRej d

/-- POLDER_CTL (R333): management core only; more than one command is ignored. -/
def State.wrPolderCtl (src : Writer) (d : Nat) (v : W64) (s : State) : State :=
  if !isMgmt src then s
  else
    match F.POLDER_CTL_START.get v, F.POLDER_CTL_KILL.get v, F.POLDER_CTL_FINISH.get v with
    | 0, 0, 0 => s
    | 1, 0, 0 => s.polderStart d
    | 0, 1, 0 => s.polderEnd d true
    | 0, 0, 1 => s.polderEnd d false
    | _, _, _ => s.polderRej d

/-- POLDER_START. -/
def execPolderStart (d : PolderIx) (s : State) : Host.Outcome State Fault Refusal := .next (s.polderStart d)
/-- POLDER_KILL. -/
def execPolderKill (d : PolderIx) (s : State) : Host.Outcome State Fault Refusal := .next (s.polderEnd d true)
/-- POLDER_FINISH. -/
def execPolderFinish (d : PolderIx) (s : State) : Host.Outcome State Fault Refusal := .next (s.polderEnd d false)

/-! ### The quarantine instant (R339) -/

/-- A tile in fc Q: threads HALTED, queued commands and work in flight discarded. -/
def Tile.quarantine (t : Tile) : Tile :=
  let t := (t.mxeClear false).xfeClear false 0
  { t with
    thr := t.thr.map fun e => (e.1, { e.2 with st := .halted })
    flip := none, vxq := [], sendq := [], late := [], gpend := [], claims := [], used := [], links := [], slots := [], held := []
    vxe := { t.vxe with run := [], stopped := false, free := 0 }
    starts := [], csrw := [], refetch := [] }

/-- The channels bound to a polder disabled, with what is announced to them (R182). -/
def State.dropChans (s : State) (d : Nat) : State :=
  let cs := (List.range 64).filter fun c => decide (s.chDom c = d)
  let s := (cs.filter fun c => decide (s.fld .GUN_CHAN [c] F.GUN_CHAN_EN = 1)).foldl (fun s c =>
    (((s.setFld .GUN_CHAN [c] F.GUN_CHAN_EN 0).setChState c 0).setFld .GUN_STAT [c] F.GUN_STAT_COUNT 0).modChan c fun _ => Chan.init) s
  { s with
    fires := s.fires.filter fun f => !cs.contains f.2.ch.val
    abortMsgs := s.abortMsgs.filter fun m => !cs.contains m.2
    abortReqs := s.abortReqs.filter fun m => !cs.contains m.ch.val
    untimed := s.untimed.filter fun m => !cs.contains m.ch.val
    readies := s.readies.filter fun m => !cs.contains m.ch.val
    groups := s.groups.filter fun g => !(regionsOf g.mask).any fun r => decide (s.polderOf r = some d) }

/-- The kind of entry that a message names by its operation. -/
def RxMsg.entKind (m : RxMsg) : Nat := match m.op with | 1 => 0 | 2 => 1 | 3 => 2 | _ => 3

/-- A message taken up for a polder's entry when the polder ends: its remainder is dropped and it completes with NO_ENTRY (R339). -/
def State.dropRxOf (s : State) (d h : Nat) : State :=
  let hit := fun m : RxMsg => m.begun && m.fail.isNone && (match s.entry h m.entKind m.entry with
    | some x => decide (x.polder = d)
    | none => false)
  let n := (((s.lport h).rx.flatMap Prod.snd).filter hit).length
  if n = 0 then s
  else (s.modPort h fun x => { x with rx := x.rx.map fun e => (e.1, e.2.map fun m => if hit m then { m with fail := some 2 } else m) }).incSat
    .HUB_CNT [h] F.HUB_CNT_BADREQ_CNT n

/-- A hub in fc Q: the polder's entries disabled, its contexts freed without completion, its waiting requests discarded (R301, R339). -/
def State.dropHub (s : State) (d h : Nat) : State :=
  let b := s.hub h
  let rv := b.recv.filterMap fun e => e.2.bind fun c => if c.polder = d then some (e.1, c.slot) else none
  let sd := b.send.filterMap fun e => e.2.bind fun c => if c.polder = some d then some (e.1, c.slot) else none
  let s := s.dropRxOf d h
  let s := (rv ++ sd).foldl (fun s c => s.keyUse c.2 false) s
  s.modHub h fun b => { b with
    reqs := b.reqs.filter fun q => decide (q.polder ≠ some d)
    ent := b.ent.filter fun e => match e.2 with | some x => decide (x.polder ≠ d) | none => false
    recv := b.recv.filter fun e => !rv.any fun c => decide (c.1 = e.1)
    send := b.send.filter fun e => !sd.any fun c => decide (c.1 = e.1)
    info := b.info.filter fun i => decide (s.tilePolder i.1 ≠ some d) }

/-- The epoch slots, sketches and slow-tier window of a polder at Q, or at a reset (R301). -/
def State.dropEpochs (s : State) (d : Nat) : State :=
  let s := (List.range 4).foldl (fun s sl =>
    { s.setEpState d sl 0 with verified := sput [] s.verified (epKey d sl) [] }) s
  let s := (List.range 64).foldl (fun s n =>
    if decide (s.fld .HEAT_TBL [n] F.HEAT_TBL_EN = 1) && decide (s.fld .HEAT_TBL [n] F.HEAT_TBL_POLDER = d) then
      (s.setFld .HEAT_TBL [n] F.HEAT_TBL_EN 0).setSketch n Sketch.init
    else s) s
  let s := ((s.setReg .ORD_CFG [d] (Reg.reset .ORD_CFG [d])).setReg .SLOW_BASE [d] 0).setReg .SLOW_LIM [d] 0
  { s with
    applied := (sput (Reg.reset .SLOW_LIM [d]) (sput (Reg.reset .SLOW_BASE [d]) s.applied (Reg.loc .SLOW_BASE [d]) 0)
      (Reg.loc .SLOW_LIM [d]) 0)
    admSwitch := sput [] s.admSwitch d []
    retiers := sput Retier.init s.retiers d Retier.init
    reloads := s.reloads.filter fun r => decide (r.polder ≠ d) }

/-- The receipt registers and requests of a polder dropped (R331). -/
def State.dropReceipts (s : State) (d : Nat) : State :=
  let s := (([.DET_CFG, .RCPT_CFG, .RCPT_SEQ, .RCPT_UPD, .RCPT_STAT] : List Reg)).foldl (fun s r => s.setReg r [d] (Reg.reset r [d])) s
  let s := (List.range 4).foldl (fun s i => (s.setReg .RCPT_PROG [d, i] 0).setReg .RCPT_HEAD [d, i] 0) s
  { s with
    applied := sput (Reg.reset .DET_CFG [d]) s.applied (Reg.loc .DET_CFG [d]) (Reg.reset .DET_CFG [d])
    rcptJobs := s.rcptJobs.filter fun j => decide (j.polder ≠ d), chains := sput Chain.init s.chains d Chain.init }

/-- A polder's bit cleared in every key binding, staged and applied; a slot left without polder loses its key (R374). -/
def State.dropKeys (s : State) (d : Nat) : State :=
  let clear := fun w : W64 => F.KEY_BIND_POLDERS.set w (F.KEY_BIND_POLDERS.get w - if bit (F.KEY_BIND_POLDERS.get w) d then 2 ^ d else 0)
  (List.range 256).foldl (fun s k =>
    let a := sget (Reg.reset .KEY_BIND [k]) s.applied (Reg.loc .KEY_BIND [k])
    let had := bit (F.KEY_BIND_POLDERS.get (s.reg .KEY_BIND [k])) d || bit (F.KEY_BIND_POLDERS.get a) d
    if !had then s
    else
      let w := clear (s.reg .KEY_BIND [k]); let b := clear a
      if decide (F.KEY_BIND_POLDERS.get w = 0) && decide (F.KEY_BIND_POLDERS.get b = 0) then
        let s := (s.setReg .KEY_BIND [k] (F.KEY_BIND_EN.set w 0)).setReg .KEY_STAT [k] (F.KEY_STAT_INUSE.set 0 (s.fld .KEY_STAT [k] F.KEY_STAT_INUSE))
        { s with applied := sput (Reg.reset .KEY_BIND [k]) s.applied (Reg.loc .KEY_BIND [k]) (F.KEY_BIND_EN.set b 0), keys := sput [] s.keys k [] }
      else
        let s := s.setReg .KEY_BIND [k] w
        { s with applied := sput (Reg.reset .KEY_BIND [k]) s.applied (Reg.loc .KEY_BIND [k]) b }) s

/-- Everything of a polder's traffic that has not begun, discarded without completion (R339). -/
def State.dropTraffic (s : State) (d : Nat) : State :=
  let s := (List.range 17).foldl (fun s h => s.dropHub d h) s
  let gone := (s.slow.filter fun j => decide (j.polder = d)).map SlowJob.id
  let rest : LPath → LPath := fun x =>
    { x with q := (x.q.map fun c => (c.1, c.2.filter fun m => decide (m.polder ≠ some d))).filter fun c => !c.2.isEmpty }
  { s with
    paths := (s.paths.map fun e => (e.1, rest e.2)).filter fun e => decide (e.2 ≠ LPath.init)
    uio := s.uio.filter fun p => p.at_.isSome || !gone.contains p.job
    slow := s.slow.filter fun j => decide (j.polder ≠ d)
    mgmt := s.mgmt.filter fun q => decide (q.polder ≠ some d)
    hops := s.hops.filter fun f => decide (s.tilePolder f.tile ≠ some d)
    epDones := s.epDones.filter fun e => decide (s.tilePolder e.1 ≠ some d)
    heats := s.heats.filter fun e => decide (s.tilePolder e.1 ≠ some d) }

/-- QUARANTINE_INSTANT (R301, R331, R339, R340, R374, R378): fc Q of a polder: the final seal and statement are formed, its tiles stop, its
channels, entries, contexts and messages go. -/
def execQuarantineInstant (d : PolderIx) (s : State) : Host.Outcome State Fault Refusal :=
  .next (match sget none s.quarAt d with
    | none => s
    | some q =>
      s.onDom d fun s =>
        let s := s.toFc d q
        let mask := s.app .POLDER_CFG [d] F.POLDER_CFG_RMASK
        let s := s.windows.foldl (fun s w => s.windowSign d w) s
        let en := decide (s.fld .RCPT_CFG [d] F.RCPT_CFG_EN = 1) && decide (s.polderState d = 2) && decide (s.lc ≠ 3)
        let mseq := s.reg .MTR [d, 15]
        let fin := if en then s.sealBytes d 3 mseq.toNat s.wt else []
        let r := s.finalStatement d
        let s := r.2.setMeter d none
        let s := s.setPolderState d 3
        let s := s.modTiles (tilesOfMask mask) Tile.quarantine
        let s := ((((s.dropChans d).dropTraffic d).dropEpochs d).dropReceipts d).dropKeys d
        { s with
          quarAt := sput none s.quarAt d none, tokens := sput none s.tokens d none
          wipes := sput none s.wipes d (some ⟨s.wt, mseq.toNat, fin, r.1.getD [], mask, s.tenant d, none⟩) })

/-! ### The wipe (R340, R341) -/

/-- WIPE_START (R340): every region of the polder begins at once. -/
def execWipeStart (d : PolderIx) (s : State) : Host.Outcome State Fault Refusal :=
  .next (match sget none s.wipes d with
    | some w =>
      if w.begun.isNone && s.domOn d then
        { s.setFld .POLDER_STAT [d] F.POLDER_STAT_WDONE 0 with wipes := sput none s.wipes d (some { w with begun := some (s.dom d).fc }) }
      else s
    | none => s)

/-- A tile wiped: R57, R105, R135, R158, R182, R204, R234; the code bank registers, ENTRY and GWDOG keep their values, and so do the pad
registers that R57 does not name. -/
def Tile.wipe (t : Tile) : Tile :=
  let keep := t.regs.filter fun e => decide (e.1 < 0x1000) || decide (e.1 = Reg.loc .GWDOG []) ||
    (List.range 16).any fun n => decide (e.1 = Reg.loc .THR_CTL [n])
  let x := { Tile.init with regs := keep }
  let x := (List.range 32).foldl (fun (x : Tile) n =>
    ((x.setFld .RING_CFG [n] F.RING_CFG_EN 0).setReg .RING_PTR [n] 0).setFld .RING_STAT [n] F.RING_STAT_FILL 0) x
  (List.range 16).foldl (fun (x : Tile) n => x.setFld .THR_BND [n] F.THR_BND_EN 0) x

/-- The memories of a tile zeroed with valid checks (R39, R57). -/
def State.wipeTile (s : State) (t : Nat) : State :=
  let s := (s.zeroRange (padAddr t 0) (padAddr t 0x400000)).zeroRange (accAddr t 0) (accAddr t 4096)
  let a := lineKey t 0; let b := rowKey t 0
  { s.modTile t Tile.wipe with crcDelta := s.crcDelta.filter fun e =>
      !(decide (a ≤ e.1) && decide (e.1 < a + 65536)) && !(decide (b ≤ e.1) && decide (e.1 < b + 8192)) }

/-- A tower wiped, all four physical layers (R72): an armed injection is disarmed (R75), pending write-backs are cancelled (R70). -/
def State.wipeTower (s : State) (r : Nat) : State :=
  let s := (s.zeroRange (twrAddr r 0) (twrAddr r 0x200000000)).setReg .TWR_INJ [r] 0
  let s := s.modTower r fun t => { t with wb := [], fixq := [], stale := false }
  let a := symKey r 0
  { s with symErr := s.symErr.filter fun e => !(decide (a ≤ e.1) && decide (e.1 < a + 2 ^ 27)) }

/-- A tower whose layers have been renumbered, wiped before its region is assigned (R73). -/
def State.wipeStale (s : State) (r : Nat) : State := if (s.tower r).stale then s.wipeTower r else s

/-- A region wiped. -/
def State.wipeRegion (s : State) (r : Nat) : State := ((tilesOf r).foldl State.wipeTile s).wipeTower r

/-- A region asleep (R411): logic and pads unpowered, its tower in retention (R71). -/
def State.sleepRegion (s : State) (r : Nat) : State :=
  let s := (s.setFld .REG_PWR [r] F.REG_PWR_STATE 1).setFld .TWR_CFG [r] F.TWR_CFG_RET 1
  (s.setFld .REG_CLK [r] F.REG_CLK_AWAKE 0).setFld .REG_CLK [r] F.REG_CLK_LOCK 0

/-- A wipe certificate (Table 14-4), signed under the wipe key. -/
def State.wipeCert (s : State) (kind pol tenant qwt dwt rmask wfail mseq : Nat) (fin : Bytes) : Bytes × State :=
  let dig := if fin.isEmpty then List.replicate 32 0 else shake256 fin 32
  let b := padTo ([5, 1, BitVec.ofNat 8 kind, BitVec.ofNat 8 pol] ++ natLe 2 tenant ++ [0, 0] ++ natLe 8 s.cseq ++ devId ++ natLe 9 qwt ++
    natLe 9 dwt ++ natLe 3 rmask ++ natLe 3 wfail ++ natLe 8 mseq ++ dig ++ [0x3F]) 96
  (padTo (b ++ s.sign "ZN4000 WIPE" b) 256, { s with cseq := s.cseq + 1 })

/-- A polder becomes FREE: its map, staged and applied, its meters and its DBG_STAT return to 0 (R340, R347, R382), its cap to 64 (R400), its
domain ends. -/
def State.polderFree (s : State) (d : Nat) : State :=
  let s := ((s.setReg .POLDER_CFG [d] 0).setPolderState d 0).setFld .DOM_CAP [d] F.DOM_CAP_M 64
  let s := { s with applied := sput (Reg.reset .POLDER_CFG [d]) s.applied (Reg.loc .POLDER_CFG [d]) 0, energySub := sput 0 s.energySub d 0, capOk := sput 0 s.capOk d 0 }
  let s := (List.range 15).foldl (fun s i => s.setReg .MTR [d, i] 0) s
  ((s.setReg .DBG_STAT [d] 0).setDom d Domain.init).retune d

/-- WIPE_COMPLETE (R340, R341): 2^20 fc after its start every region is done; regions that failed are marked; the certificate is signed and
delivered with the final seal and statement; the polder is FREE and its regions sleep. -/
def execWipeComplete (d : PolderIx) (failed : BitVec 24) (s : State) : Host.Outcome State Fault Refusal :=
  .next (match sget none s.wipes d with
    | some ⟨qwt, mseq, fin, stmt, mask, tenant, some b⟩ =>
      s.onDom d fun s =>
        let s := s.toFc d (b + 2 ^ 20)
        if !s.domOn d then s else
        let bad := failed.toNat &&& mask
        let s := (regionsOf mask).foldl State.wipeRegion s
        let s := (s.setFld .POLDER_STAT [d] F.POLDER_STAT_WDONE mask).setFld .POLDER_STAT [d] F.POLDER_STAT_WFAIL
          (s.fld .POLDER_STAT [d] F.POLDER_STAT_WFAIL ||| bad)
        let c := s.wipeCert 0 d tenant qwt s.wt mask bad mseq fin
        let s := if stmt.isEmpty then c.2 else c.2.retain (some d) 3 stmt
        let s := if fin.isEmpty then s else s.postAll (some d) (eventEntry 5 [] 0 fin)
        let s := s.retain (some d) 4 c.1
        let s := (regionsOf mask).foldl State.sleepRegion s
        { s with wipes := sput none s.wipes d none }.polderFree d
    | _ => s)

end Sys2Proof.Machine
end

