-- ==== Sys2Proof/Machine/Commit.lean ====
section
/-! DEFINITION. Staged commit (R337, R338, R371) and the settings it applies. -/
namespace Sys2Proof.Machine

/-! ### The staged registers -/

/-- A register instance with STG fields. -/
abbrev Setting := Reg × List Nat

/-- The settings of polder `d` (R338). -/
def polderSettings (d : Nat) : List Setting :=
  [(.POLDER_CFG, [d]), (.DOM_CFG, [d]), (.DET_CFG, [d]), (.SLOW_BASE, [d]), (.SLOW_LIM, [d])] ++
    (List.range 256).map fun i => (.PEERTAB, [d, i])

/-- Every other setting. -/
def chipSettings : List Setting :=
  ((List.range 16).map fun p => (.PORT_CFG, [p])) ++ ((List.range 32).map fun n => (.PATH_CFG, [n])) ++
    ((List.range 32).map fun n => (.PACK_CFG, [n])) ++ [(.LINK_ID, []), (.HALF_CFG, [0]), (.HALF_CFG, [1]), (.SEAM_CFG, []), (.METER_CFG, [])] ++
    ((List.range 256).map fun k => (.KEY_BIND, [k]))

/-- The applied copy of a setting. -/
def State.applied? (s : State) (x : Setting) : W64 := sget (x.1.reset x.2) s.applied (x.1.loc x.2)
/-- Whether the staged copy of a setting differs from the applied one. -/
def State.staged (s : State) (x : Setting) : Bool := decide (s.reg x.1 x.2 ≠ s.applied? x)
/-- A setting applied. -/
def State.apply1 (s : State) (x : Setting) : State :=
  { s with applied := sput (x.1.reset x.2) s.applied (x.1.loc x.2) (s.reg x.1 x.2) }

/-! ### Checks (Table 14-2) -/

/-- Staged RMASK of a polder. -/
def State.stMask (s : State) (d : Nat) : Nat := s.fld .POLDER_CFG [d] F.POLDER_CFG_RMASK
/-- Applied RMASK of a polder. -/
def State.apMask (s : State) (d : Nat) : Nat := s.app .POLDER_CFG [d] F.POLDER_CFG_RMASK
/-- Whether a mask has regions in both halves. -/
def spansSeam (m : Nat) : Bool := decide (m % 2 ^ 12 ≠ 0) && decide (m / 2 ^ 12 ≠ 0)
/-- The polder and region indices. -/
def polders : List Nat := List.range 8

/-- Check 2: a region in two RMASKs, or a polder with regions and without tenant. -/
def State.check2 (s : State) : Option Nat :=
  (List.range 24).find? fun r =>
    let ds := polders.filter fun d => bit (s.stMask d) r
    decide (1 < ds.length) || ds.any fun d => decide (s.fld .POLDER_CFG [d] F.POLDER_CFG_TENANT = 0)
/-- Check 3: regions removed from, or the tenant changed of, a polder that is not FREE. -/
def State.check3 (s : State) : Option Nat :=
  polders.find? fun d => decide (s.polderState d ≠ 0) &&
    ((regionsOf (s.apMask d)).any (fun r => !bit (s.stMask d) r) || decide (s.fld .POLDER_CFG [d] F.POLDER_CFG_TENANT ≠ s.tenant d))
/-- Check 4: an added region that is retired, absent, asleep or marked in WFAIL. -/
def State.check4 (s : State) : Option Nat :=
  (List.range 24).find? fun r =>
    (polders.any fun d => bit (s.stMask d) r && !bit (s.apMask d) r) &&
      (!bit (s.fld .CAPS_REGIONS [] ⟨23, 0, .ro, 0⟩) r || decide (s.fld .REG_CLK [r] F.REG_CLK_AWAKE = 0) ||
        polders.any fun d => bit (s.fld .POLDER_STAT [d] F.POLDER_STAT_WFAIL) r)
/-- Check 5: a polder across the seam while the staged MODE is Split. -/
def State.check5 (s : State) : Option Nat :=
  if s.fld .SEAM_CFG [] F.SEAM_CFG_MODE = 1 then polders.find? fun d => spansSeam (s.stMask d) else none
/-- Whether a commit changes for a polder what R23 confines to a gun: its map, the seam mode, a path table. -/
def State.gunBound (s : State) (d : Nat) : Bool :=
  decide (s.stMask d ≠ s.apMask d) ||
    (s.staged (.SEAM_CFG, []) && (spansSeam (s.stMask d) || spansSeam (s.apMask d))) ||
    (List.range 32).any fun n => s.staged (.PATH_CFG, [n]) &&
      (bit (s.fld .PATH_CFG [n] F.PATH_CFG_POLDERS) d || bit (s.app .PATH_CFG [n] F.PATH_CFG_POLDERS) d)
/-- Check 6: a gun-bound change of a RUNNING polder away from a gun of that polder; a change of its DET_CFG, window or PEERTAB. -/
def State.check6 (s : State) (gun : Option Nat) : Option Nat :=
  polders.find? fun d => decide (s.polderState d = 2) &&
    ((s.gunBound d && decide (gun.map s.chDom ≠ some d)) ||
      ((polderSettings d).drop 2).any fun x => s.staged x)
/-- Check 7: a path that breaks R258. -/
def State.check7 (s : State) : Option Nat :=
  let en := fun n => decide (s.fld .PATH_CFG [n] F.PATH_CFG_EN = 1)
  let ports := fun n => (List.range 16).filter fun p => bit (s.fld .PATH_CFG [n] F.PATH_CFG_PORTS) p
  (List.range 32).find? fun n => en n &&
    (decide (ports n = []) || decide (4 < (ports n).length) || decide (s.fld .PATH_CFG [n] F.PATH_CFG_GRACE = 0) ||
      decide (s.fld .PATH_CFG [n] F.PATH_CFG_PEER = s.fld .LINK_ID [] F.LINK_ID_PEERID) ||
      ((List.range 32).any fun k => decide (k ≠ n) && en k && (ports n).any fun p => (ports k).contains p) ||
      polders.any fun d => bit (s.fld .PATH_CFG [n] F.PATH_CFG_POLDERS) d &&
        (ports n).any fun p => !(List.range 6).any fun a => bit (s.stMask d) (regionOf (attached p a)))
/-- Check 8: WIDTH 3. -/
def State.check8 (s : State) : Option Nat := (List.range 16).find? fun p => decide (s.fld .PORT_CFG [p] F.PORT_CFG_WIDTH = 3)
/-- Check 9: FSET or FMAX outside 19 to 64. -/
def State.check9 (s : State) : Option Nat :=
  let bad := fun m => decide (m < 19) || decide (64 < m)
  (polders.find? fun d => bad (s.fld .DOM_CFG [d] F.DOM_CFG_FSET)).orElse fun _ =>
    ([0, 1] : List Nat).find? fun h => bad (s.fld .HALF_CFG [h] F.HALF_CFG_FMAX)
/-- Check 10: PACK_CFG against R314. -/
def State.check10 (s : State) : Option Nat :=
  (List.range 32).find? fun n =>
    let bs := [F.PACK_CFG_TX3, F.PACK_CFG_TX4, F.PACK_CFG_RX3, F.PACK_CFG_RX4].map fun f => s.fld .PACK_CFG [n] f
    (bs.any fun b => !(declOf b).en && decide (b ≠ 0)) || ((bs.any fun b => (declOf b).en) && decide (s.fld .PATH_CFG [n] F.PATH_CFG_EN = 0))
/-- Check 11: R371. -/
def State.check11 (s : State) : Option Nat :=
  let en := fun k => decide (s.fld .KEY_BIND [k] F.KEY_BIND_EN = 1)
  let pol := fun k => s.fld .KEY_BIND [k] F.KEY_BIND_POLDERS
  let tn := fun k => s.fld .KEY_BIND [k] F.KEY_BIND_TENANT
  let id := fun k => s.fld .KEY_BIND [k] F.KEY_BIND_KEYID
  (List.range 256).find? fun k =>
    (en k && (decide (pol k = 0) || decide (s.fld .KEY_STAT [k] F.KEY_STAT_LOADED = 0) ||
      decide (s.fld .KEY_STAT [k] F.KEY_STAT_TENANT ≠ tn k) || decide (s.fld .KEY_STAT [k] F.KEY_STAT_KEYID ≠ id k) ||
      (polders.any fun d => bit (pol k) d && decide (s.fld .POLDER_CFG [d] F.POLDER_CFG_TENANT ≠ tn k)) ||
      ((List.range 256).any fun j => decide (j ≠ k) && en j && decide (tn j = tn k) && decide (id j = id k) && decide (pol j &&& pol k ≠ 0)))) ||
    (decide (s.fld .KEY_STAT [k] F.KEY_STAT_INUSE ≠ 0) &&
      ((decide (s.app .KEY_BIND [k] F.KEY_BIND_EN = 1) && !en k) ||
        polders.any fun d => bit (s.app .KEY_BIND [k] F.KEY_BIND_POLDERS) d && !bit (pol k) d))
/-- Check 12: the meter interval. -/
def State.check12 (s : State) : Option Nat :=
  let i := s.fld .METER_CFG [] F.METER_CFG_INTERVAL
  if decide (i < 1) || decide (3600 < i) then some 0 else none
/-- Check 1 of a gun instant: its channel is enabled. -/
def State.check1 (s : State) (gun : Option Nat) : Option Nat :=
  match gun with
  | some c => if s.fld .GUN_CHAN [c] F.GUN_CHAN_EN = 0 then some c else none
  | none => none

/-- The first check that fails, with its ITEM. -/
def State.commitCheck (s : State) (gun : Option Nat) : Option (Nat × Nat) :=
  let cs := [s.check1 gun, s.check2, s.check3, s.check4, s.check5, s.check6 gun, s.check7, s.check8, s.check9, s.check10, s.check11, s.check12]
  (List.range 12).findSome? fun i => (cs.getD i none).map fun x => (i + 1, x)

/-! ### Rejection and completion -/

/-- A COMMIT command that waits for the commit answered (Table 15-5): OK, or STAGE_CONFLICT with CODE, ITEM and LATE. -/
def State.commitAnswer (s : State) (ans : Option (Nat × Bytes)) (rej : Option (Nat × Nat × Bool)) : State :=
  match ans with
  | none => s
  | some (m, tag) =>
    match rej with
    | none => s.post m (eventEntry 1 tag 0 [])
    | some (code, item, late) => s.post m (eventEntry 1 tag 8 [BitVec.ofNat 8 code, BitVec.ofNat 8 item, if late then 1 else 0])

/-- A commit rejected with CODE and ITEM (R338). -/
def State.commitReject (s : State) (code item : Nat) (late : Bool) (ans : Option (Nat × Bytes)) : State :=
  let w := F.COMMIT_STAT_STATE.set (F.COMMIT_STAT_CODE.set (F.COMMIT_STAT_ITEM.set (s.reg .COMMIT_STAT []) item) code) 3
  let s := ({ s with commit := none }.setReg .COMMIT_STAT [] w).setFld .COMMIT_STAT [] F.COMMIT_STAT_LATE (if late then 1 else 0)
  (s.setFld .COMMIT_STAT [] F.COMMIT_STAT_REJ 1).commitAnswer ans (some (code, item, late))

/-- GO with an instant (R338): the checks run at once; PENDING if they pass. -/
def State.commitGo (s : State) (gun : Option Nat) (ans : Option (Nat × Bytes)) : State :=
  let early := gun.isNone && decide ((s.reg .COMMIT_AT []).toNat < s.ns + 100000)
  if early then s.commitReject 1 0 false ans
  else match s.commitCheck gun with
    | some (code, item) => s.commitReject code item false ans
    | none =>
      { s.setReg .COMMIT_STAT [] (F.COMMIT_STAT_LATE.set (F.COMMIT_STAT_STATE.set (s.reg .COMMIT_STAT []) 1) 0) with commit := some ⟨gun, ans⟩ }

/-- A PENDING commit rejected with code 1 by ABORT. -/
def State.commitAbort (s : State) : State :=
  match s.commit with
  | some c => s.commitReject 1 (c.gun.getD 0) false c.ans
  | none => s

/-- COMMIT_CTL (R338): management core only; ABORT before GO; a further GO while PENDING sets CFG_REJ. -/
def State.wrCommitCtl (src : Writer) (v : W64) (s : State) : State :=
  if !isMgmt src then s
  else
    let s := if F.COMMIT_CTL_ABORT.get v = 1 then s.commitAbort else s
    if F.COMMIT_CTL_GO.get v = 0 then s
    else if s.commit.isSome then s.setFld .COMMIT_STAT [] F.COMMIT_STAT_CFG_REJ 1
    else s.commitGo (if F.COMMIT_CTL_AT_GUN.get v = 1 then some (F.COMMIT_CTL_CH.get v) else none) none

/-- COMMIT_GO. -/
def execCommitGo (v : W64) (s : State) : Host.Outcome State Fault Refusal :=
  .next (s.wrCommitCtl .mgmt (F.COMMIT_CTL_GO.set v 1))
/-- COMMIT_ABORT. -/
def execCommitAbort (s : State) : Host.Outcome State Fault Refusal := .next s.commitAbort

/-! ### Application -/

/-- The effects of a polder's new map (R332, R334, R216): a FREE polder becomes ASSIGNED, its domain is formed and its meters start. -/
def State.mapApplied (s : State) (d : Nat) : State :=
  if decide (s.polderState d = 0) && decide (s.apMask d ≠ 0) then
    let rs := regionsOf (s.apMask d)
    let s := { s with
      stretch := s.stretch.filter fun x => !rs.contains x.region
      waves := s.waves.filter fun x => !rs.contains x.1 }
    ((s.setPolderState d 1).setDom d { Domain.init with formed := true }).meterStart d
  else s

/-- The settings of a polder applied; the regions it gains hold wiped towers (R73). -/
def State.applyPolder (s : State) (d : Nat) : State :=
  let s := ((regionsOf (s.stMask d)).filter fun r => !bit (s.apMask d) r).foldl State.wipeStale s
  (((polderSettings d).foldl State.apply1 s).mapApplied d).retune d

/-- A port's new settings (R256, Table 10-6): EN applied starts training, EN cleared turns the port off, a new WIDTH is asked of the peer. What
awaits its completion on a port turned off completes with PORT_DOWN (DESIGN CHOICE, log 75: R263 tells each requester once, and the spec
names no status for this case). -/
def State.applyPort (s : State) (p : Nat) : State :=
  let old := s.applied? (.PORT_CFG, [p])
  let s := s.apply1 (.PORT_CFG, [p])
  let w := s.reg .PORT_CFG [p]
  let st := s.portState p
  if decide (F.PORT_CFG_EN.get w = 0) then (if decide (st = 6) || decide (st = 0) then s else
    (((s.portLose p).modPort p fun x => { LPort.init with downs := x.downs }).setPortState p 0).pathsLook)
  else if decide (F.PORT_CFG_EN.get old = 0) && decide (st = 0) then s.startAttempt p false true
  else if F.PORT_CFG_WIDTH.get old ≠ F.PORT_CFG_WIDTH.get w then s.drainPort p (some (3, lanesOf (F.PORT_CFG_WIDTH.get w)))
  else s

/-- Every setting that belongs to no polder applied. -/
def State.applyChip (s : State) : State :=
  let s := (List.range 16).foldl State.applyPort s
  let s := (chipSettings.drop 16).foldl State.apply1 s
  ((s.setFld .SEAM_STAT [] F.SEAM_STAT_MODEA (s.app .SEAM_CFG [] F.SEAM_CFG_MODE)).retuneAll).pathsLook

/-- Reference periods until the next fc of a domain begins: none where one begins now. -/
def State.ticksToFc (s : State) (d : Nat) : Nat :=
  let x := s.dom d
  if decide (x.phase = 0) && decide (x.debt = 0) then 0 else s.ticksTo d (x.fc + 1)

/-- A domain inserted by the time its next fc begins. -/
def State.insertDom (s : State) (d : Nat) : List Nat → List Nat
  | [] => [d]
  | e :: es => if s.ticksToFc d < s.ticksToFc e then d :: e :: es else e :: s.insertDom d es

/-- The settings of the polders applied, each at the first fc of its domain that begins at or after now (R338), in the order of those fc;
those of a polder without regions at once. -/
def State.applyPolders (s : State) : State :=
  let live := polders.filter fun d => (s.dom d).formed
  let s1 := (polders.filter fun d => !(s.dom d).formed).foldl State.applyPolder s
  (live.foldr (fun d l => s1.insertDom d l) []).foldl (fun s d => (s.advance (s.ticksToFc d)).applyPolder d) s1

/-- The commit is DONE. -/
def State.commitDone (s : State) (ans : Option (Nat × Bytes)) : State :=
  let s := { s.setFld .COMMIT_STAT [] F.COMMIT_STAT_STATE 2 with commit := none, opStaged := false }
  (s.setReg .COMMIT_WT [] (BitVec.ofNat 64 s.ns)).commitAnswer ans none

/-- COMMIT_APPLY (R338, R419): the wt instant of a PENDING commit: the checks run again, then every setting applies, or the commit is
rejected LATE. During a freeze it waits. A gun commit is applied at its fire instant; here only one whose channel is no longer enabled
is rejected with code 1, before its instant and so without LATE (DEDUCED, log 40). -/
def execCommitApply (s : State) : Host.Outcome State Fault Refusal :=
  .next (if s.frzState ≠ 0 then s
    else match s.commit with
      | none => s
      | some ⟨some c, ans⟩ =>
        match s.check1 (some c) with
        | some k => s.commitReject 1 k false ans
        | none => s
      | some ⟨none, ans⟩ =>
        let s := s.toNs (s.reg .COMMIT_AT []).toNat
        match s.commitCheck none with
        | some (code, item) => s.commitReject code item true ans
        | none => (s.applyChip.applyPolders).commitDone ans)

/-- A gun commit at fire instant N of its channel: the settings of the polders whose domain is that of the channel apply at N, those of
other polders at their next fc, all others at the wt of N. -/
def State.commitAtGun (c : Nat) (s : State) : State :=
  match s.commit with
  | some ⟨some k, ans⟩ =>
    if k ≠ c then s
    else match s.commitCheck (some c) with
      | some (code, item) => s.commitReject code item true ans
      | none =>
        let s1 := (s.applyChip).applyPolder (s.chDom c)
        let s2 := (polders.filter fun d => decide (d ≠ s.chDom c)).foldl State.applyPolder s1
        let now := polders.filter fun d => (s.dom d).formed && decide (s2.freqTerms d ≠ s.freqTerms d)
        (now.foldl State.retuneNow s2).commitDone ans
  | _ => s

/-- Staged settings committed 200 µs ahead, unless the operator has staged writes of its own that are not committed (R400). -/
def State.commitSoon (s : State) : State :=
  if s.opStaged then s else (s.setReg .COMMIT_AT [] (BitVec.ofNat 64 (s.ns + 200000))).commitGo none none

/-- FIRE_INSTANT (R160 to R163, R23). -/
def execFireInstant (ch : ChanIx) (s : State) : Host.Outcome State Fault Refusal :=
  .next (State.fireInstant ch (State.commitAtGun ch) s)

/-- A write of a register with STG fields (R337, R338): management core only; ignored with CFG_REJ while a commit is PENDING. -/
def State.wrStaged (src : Writer) (r : Reg) (i : List Nat) (v : W64) (s : State) : State :=
  if !isMgmt src then s
  else if s.commit.isSome then s.setFld .COMMIT_STAT [] F.COMMIT_STAT_CFG_REJ 1
  else s.write r i v

end Sys2Proof.Machine
end

