-- ==== Sys2Proof/Machine/PadCtl.lean ====
section
/-! DEFINITION. Writes to the registers of a tile's pad and core blocks, the service port and the ring append (R32 to R35, R42, R51,
R52, R55, R79, R86, R172). -/
namespace Sys2Proof.Machine

/-- PAD_PHASE_WRITE. -/
def execPadPhaseWrite (src : Writer) (t : TileIx) (v : W64) (s : State) : Host.Outcome State Fault Refusal :=
  .next (s.tileBy src t fun s => s.modTile t (Tile.wrPhase src v))

/-- THR_BND_WRITE. -/
def execThrBndWrite (src : Writer) (t : TileIx) (th : ThreadIx) (v : W64) (s : State) : Host.Outcome State Fault Refusal :=
  .next (s.tileBy src t fun s => s.modTile t (Tile.wrBnd src th v))

/-- RING_CFG_WRITE. -/
def execRingCfgWrite (src : Writer) (t : TileIx) (n : RingIx) (v : W64) (s : State) : Host.Outcome State Fault Refusal :=
  .next (s.tileBy src t fun s => s.modTile t (Tile.wrRing src n v))

/-- RING_HREL. -/
def execRingHrel (src : Writer) (t : TileIx) (n : RingIx) (v : W64) (s : State) : Host.Outcome State Fault Refusal :=
  .next (s.tileBy src t fun s => s.modTile t (Tile.wrHrel src n v))

/-- CODE_BANK_WRITE. -/
def execCodeBankWrite (src : Writer) (t : TileIx) (bankB : Bool) (v : W64) (s : State) : Host.Outcome State Fault Refusal :=
  .next (s.tileBy src t fun s => s.modTile t (Tile.wrBank src (if bankB then 1 else 0) v))

/-- CODE_CTL_WRITE. -/
def execCodeCtlWrite (src : Writer) (t : TileIx) (v : W64) (s : State) : Host.Outcome State Fault Refusal :=
  .next (s.tileBy src t fun s => s.modTile t (Tile.wrCodeCtl src v))

/-- GAUGE_WRITE (R86): a set that lands before the other changes of its fc. -/
def execGaugeWrite (src : Writer) (t : TileIx) (n : GaugeIx) (v : W64) (s : State) : Host.Outcome State Fault Refusal :=
  .next (s.tileBy src t fun s => s.modTile t fun x => x.gchange (.csr n v))

/-- THR_HALT (R79): HALTED from any state. -/
def execThrHalt (src : Writer) (t : TileIx) (th : ThreadIx) (s : State) : Host.Outcome State Fault Refusal :=
  .next (s.tileBy src t fun s => s.modTile t fun x => x.halt th)

/-- THR_START (R79): a halted thread starts at ENTRY. -/
def execThrStart (src : Writer) (t : TileIx) (th : ThreadIx) (s : State) : Host.Outcome State Fault Refusal :=
  .next (s.tileBy src t fun s => s.modTile t fun x => x.start th (x.entry th))

/-- RESTORE (R172). -/
def execRestore (src : Writer) (t : TileIx) (s : State) : Host.Outcome State Fault Refusal :=
  .next (s.tileBy src t fun s => s.modTile t (Tile.wrRestore src (s.fc t)))

/-- Whether the service port accepts an access, R33. -/
def State.svcOk (s : State) (t addr width : Nat) : Bool :=
  let x := s.tile t
  decide (x.fld .PAD_PHASE [] F.PAD_PHASE_PHASE ≠ 0) && s.dikeTile 1171 0 t && decide (0x380000 ≤ addr) && decide (addr < 0x400000) &&
    (width == 1 || width == 2 || width == 4 || width == 8) && decide (addr % width = 0)

/-- SERVICE_PORT_ACCESS (R33, R34, R37): in a slot that no engine claims, a read answers the management core with data, a write merges; a refusal
or a failed line check answers an error. -/
def execServicePortAccess (t : TileIx) (addr width : Nat) (wr : Option W64) (s : State) : Host.Outcome State Fault Refusal :=
  .next (let s := s.routeFree 1171 t
    if s.svcOk t addr width then
      let s := State.freeSlot t (addr / 64) 9 tries s
      match wr with
      | none =>
        match s.padGet t addr width 9 0 with
        | .ok b s => s.tileMgmt t true b
        | .crc s => s.tileMgmt t false []
        | .live s => s.tileMgmt t false []
      | some v =>
        match s.padPut t addr (natLe width v.toNat) 9 0 with
        | .ok _ s => s.tileMgmt t true []
        | .crc s => s.tileMgmt t false []
        | .live s => s.tileMgmt t false []
    else s.svcRej t 9)

/-- Whether a ring append is performed, R35. -/
def State.appendOk (s : State) (t n : Nat) (payload : Bytes) : Bool :=
  let x := s.tile t
  let c := x.ring n
  decide (n < 32) && decide (F.RING_CFG_EN.get c = 1) && decide (F.RING_CFG_PROD.get c = 7) &&
    decide (F.RING_CFG_EDGE.get c = 1) && decide (ringEsz c ≤ 256) &&
    decide ((payload.length + 31) / 32 = 1 + (ringEsz c + 31) / 32) &&
    match s.tilePolder t with
    | some d => decide (s.polderState d = 1) || decide (s.polderState d = 2)
    | none => false

/-- A ring append that has reached its tile, R35: the entry stored at the tail in free slots as unit 0x7, an overrun of a full ring, or a refusal. -/
def State.appendIn (t : Nat) (payload : Bytes) (s : State) : State :=
  let n := (byteAt payload 0).toNat
  if s.appendOk t n payload then
    let x := s.tile t
    if x.ringFull n then (s.modTile t fun x => x.ringOver n).tileMgmt t false []
    else
      match s.freeStore t (x.entryAddr n (x.tail n)) (slice payload 32 (ringEsz (x.ring n))) 7 16 with
      | .ok _ s => (s.modTile t fun x => x.advTail n 1).tileMgmt t true []
      | .crc s => s.tileMgmt t false []
      | .live s => s.tileMgmt t false []
  else s.svcRej t 7

/-- A ring append of the management core on its way to a tile (R35, R207). -/
def State.append (s : State) (t : Nat) (payload : Bytes) : State :=
  s.route ⟨t, 1171, 0, 7, (payload.length + 31) / 32 - 1⟩ (State.appendIn t payload)

/-- RING_APPEND (R35). -/
def execRingAppend (t : TileIx) (payload : Bytes) (s : State) : Host.Outcome State Fault Refusal := .next (s.append t payload)

end Sys2Proof.Machine
end

