-- ==== Sys2Proof/Machine/Tower.lean ====
section
/-! DEFINITION. The towers' configuration, error injection, scrubber and fix queue (R69, R70, R73, R75). -/
namespace Sys2Proof.Machine

/-- TWR_CFG (R73): PRES is written only while the region belongs to no polder and stays non-zero; else CFG_REJ. Terern persists it; a tower
renumbered is wiped before its region is next assigned. -/
def State.wrTwrCfg (r : Nat) (v : W64) (s : State) : State :=
  let p := F.TWR_CFG_PRES.get v
  if (s.polderOf r).isNone && decide (p ≠ 0) then
    let s := if p = s.fld .TWR_CFG [r] F.TWR_CFG_PRES then s else s.modTower r fun t => { t with stale := true }
    { s.setFld .TWR_CFG [r] F.TWR_CFG_PRES p with flash := { s.flash with pres := sput 15 s.flash.pres r p } }
  else s.setFld .TWR_ERR [r] F.TWR_ERR_CFG_REJ 1

/-- TWR_INJ (R75): ARM = 0 disarms; ARM = 1 arms while every tile of the region is in TEST and the symbols exist; else CFG_REJ. -/
def State.wrTwrInj (r : Nat) (v : W64) (s : State) : State :=
  if F.TWR_INJ_ARM.get v = 0 then s.setReg .TWR_INJ [r] 0
  else if ((tilesOf r).all fun t => decide ((s.tile t).fld .PAD_PHASE [] F.PAD_PHASE_PHASE = 2)) &&
      decide (F.TWR_INJ_SYMA.get v ≤ 131) && (decide (F.TWR_INJ_TWO.get v = 0) || decide (F.TWR_INJ_SYMB.get v ≤ 131)) then
    s.setReg .TWR_INJ [r] (keepFields (Reg.info .TWR_INJ).flds v)
  else s.setFld .TWR_ERR [r] F.TWR_ERR_CFG_REJ 1

/-- TWR_CFG_WRITE. -/
def execTwrCfgWrite (src : Writer) (r : RegionIx) (v : W64) (s : State) : Host.Outcome State Fault Refusal :=
  .next (s.chipBy src (State.wrTwrCfg r v))

/-- TWR_INJ_WRITE. -/
def execTwrInjWrite (src : Writer) (r : RegionIx) (v : W64) (s : State) : Host.Outcome State Fault Refusal :=
  .next (s.chipBy src (State.wrTwrInj r v))

/-! ### Service accesses (R68) -/

/-- The domain and fc in which a region's tower serves: none where no domain clocks it or it is in retention (R71). -/
def State.svcFc (s : State) (r : Nat) : Option (Nat × Nat) :=
  match s.polderOf r with
  | some d => if (s.dom d).formed && s.domOn d && decide (s.fld .TWR_CFG [r] F.TWR_CFG_RET = 0) then some (d, (s.dom d).fc) else none
  | none => none

/-- The vault of a physical line (R59). -/
def State.vaultOf (s : State) (r phys : Nat) : Nat := s.logLine r phys / 2 % 48

/-- Whether a vault serves a service access in a reserved fc already, a write-back included. -/
def State.svcTaken (s : State) (r fc v : Nat) : Bool :=
  (s.tower r).svc.contains (fc, v) || (s.tower r).wb.any fun w => decide (w.1 = fc) && decide (s.vaultOf r w.2.1 = v)

/-- The access of a vault in a reserved fc taken. -/
def State.svcTake (s : State) (r fc v : Nat) : State :=
  s.modTower r fun t => { t with svc := (fc, v) :: t.svc.filter fun c => decide (fc ≤ c.1) }

/-- The reserved slot of a line's write-back: the one after that in which it was read (R70); 0, at once, without a clock. -/
def State.wbFc (s : State) (r : Nat) : Nat :=
  match s.svcFc r with
  | some (_, fc) => fc + 16
  | none => 0

/-! ### The scrubber (R69) -/

/-- The position after the scrubber's: a pass ends at the capacity (R69, Table 3-10). A position that a smaller PRES has left beyond the
capacity goes to 0 and ends its pass, with no line read (DESIGN CHOICE, log 74: the spec does not say). -/
def State.scrubNext (s : State) (r : Nat) : State :=
  let p := s.fld .TWR_SCRUB [r] F.TWR_SCRUB_POS + 1
  if p < s.twrLines r then s.setFld .TWR_SCRUB [r] F.TWR_SCRUB_POS p
  else (s.setFld .TWR_SCRUB [r] F.TWR_SCRUB_POS 0).incWrap .TWR_SCRUB [r] F.TWR_SCRUB_PASS 1

/-- 28 ticks of 1/32,768 s in units of the calendar, 1/1,792 ns (R69). -/
def scrubPeriod : Nat := 1531250000

/-- Whether a line is due: the scrubber has read none in this period of 28 ticks. It stands while the crystal is stopped (R413) or the device
frozen (R419). -/
def State.scrubDue (s : State) (r : Nat) : Bool := !s.xtalOff && !s.isFrozen && decide ((s.tower r).period ≠ s.cal / scrubPeriod)

/-- The line at the scrubber's position. -/
def State.scrubLine (s : State) (r : Nat) : Option Nat := s.physLine r (s.fld .TWR_SCRUB [r] F.TWR_SCRUB_POS)

/-- The scrubber reads and decodes the line at its position; a corrected line is to be written back (R69, R70). -/
def State.scrubRead (r : Nat) (s : State) : State :=
  let s1 := (s.scrubNext r).modTower r fun t => { t with period := s.cal / scrubPeriod }
  match s.scrubLine r with
  | none => s1
  | some p =>
    let s2 := (s1.twrRead r p 2 0).2
    if (sget [] s.symErr (symKey r p)).length = 1 then s2.modTower r fun t => { t with wb := t.wb ++ [(s.wbFc r, p, false)] } else s2

/-! ### The fix queue (R66) -/

/-- The line that the fix queue reads next: its head, if that has not been read. -/
def State.fixLine (s : State) (r : Nat) : Option Nat :=
  if (s.tower r).wb.any fun w => w.2.2 then none else (s.tower r).fixq.head?

/-- The fix queue reads its head again; a line that still needs correction is to be rewritten, an uncorrectable one is not (R66, R67, R70). -/
def State.fixRead (r : Nat) (s : State) : State :=
  match s.fixLine r with
  | none => s
  | some p =>
    let done := s.modTower r fun t => { t with fixq := t.fixq.erase p }
    match sget [] s.symErr (symKey r p) with
    | [] => done
    | [_] => s.modTower r fun t => { t with wb := t.wb ++ [(s.wbFc r, p, true)] }
    | _ => (done.twrRead r p 3 0).2

/-! ### The order of service accesses (R68) -/

/-- What comes before a service access of a vault in a reserved fc: the scrubber's line if one is due, then the fix queue's (R68). `rank` of
the access: 0 scrubber, 1 fix queue, 2 host. -/
def State.svcBefore (s : State) (r fc v rank : Nat) : State :=
  let mine := fun (s : State) (l : Option Nat) => (match l with | some p => decide (s.vaultOf r p = v) | none => false) && !s.svcTaken r fc v
  let s := if decide (1 ≤ rank) && s.scrubDue r && mine s (s.scrubLine r) then (s.svcTake r fc v).scrubRead r else s
  if decide (2 ≤ rank) && mine s (s.fixLine r) then (s.svcTake r fc v).fixRead r else s

/-- The clock brought to the reserved fc in which a vault serves a service access, within `n` of them (R62, R68). -/
def State.svcSlot (r v rank : Nat) : Nat → State → State
  | 0, s => s
  | n + 1, s =>
    match s.svcFc r with
    | none => s
    | some (d, fc) =>
      if fc % 16 ≠ 15 then State.svcSlot r v rank n (s.toFc d (fc / 16 * 16 + 15))
      else
        let s := s.svcBefore r fc v rank
        if s.svcTaken r fc v then State.svcSlot r v rank n (s.toFc d (fc + 16)) else s.svcTake r fc v

/-- The service slot of a line. -/
def State.lineSlot (s : State) (r phys rank : Nat) : State := State.svcSlot r (s.vaultOf r phys) rank 64 s

/-- The clock brought to the beginning of the scrubber's next period of 28 ticks. -/
def State.nextPeriod (s : State) : State :=
  s.advance ((scrubPeriod * (s.cal / scrubPeriod + 1) - s.cal + 1023) / 1024)

/-- SCRUB_LINE (R68, R69): the line due, or the next one as its 28 ticks are over, is read in a reserved fc; without a clock at once (R71). -/
def execScrubLine (r : RegionIx) (s : State) : Host.Outcome State Fault Refusal :=
  .next (if s.xtalOff || s.isFrozen then s
    else
      let s := if s.scrubDue r then s else s.nextPeriod
      match s.scrubLine r with
      | some p => (s.lineSlot r p 0).scrubRead r
      | none => s.scrubRead r)

/-- A pending write-back in its reserved slot, unless another write has cancelled it until then (R70). -/
def State.wbSlot (s : State) (r : Nat) (w : Nat × Nat × Bool) : State :=
  let s := match s.svcFc r with
    | some (d, _) => s.toFc d w.1
    | none => s
  if (s.tower r).wb.contains w then s.wbMake r w else s

/-- SCRUB_WRITEBACK (R70): the oldest pending write-back of the scrubber. -/
def execScrubWriteback (r : RegionIx) (s : State) : Host.Outcome State Fault Refusal :=
  .next (match (s.tower r).wb.find? fun w => !w.2.2 with
    | none => s
    | some w => if s.isFrozen then s else s.wbSlot r w)

/-- FIX_QUEUE_WRITEBACK (R66, R68, R70): the head of the fix queue is read again in a reserved slot and rewritten in the next. In retention
only the scrubber runs (R71). -/
def execFixQueueWriteback (r : RegionIx) (s : State) : Host.Outcome State Fault Refusal :=
  .next (if decide (s.fld .TWR_CFG [r] F.TWR_CFG_RET = 1) || s.isFrozen then s
    else
      let s := match s.fixLine r with
        | some p => (s.lineSlot r p 1).fixRead r
        | none => s
      match (s.tower r).wb.find? fun w => w.2.2 with
      | none => s
      | some w => s.wbSlot r w)

end Sys2Proof.Machine
end

