-- ==== Sys2Proof/Machine/HostPort.lean ====
section
/-! DEFINITION. The host port: BAR2 accesses, the mailboxes' command rings, the link and PERST_N (R348 to R353, R356 to R358, R360,
R362, R363). -/
namespace Sys2Proof.Machine

/-! ### The link -/

/-- Whether requests reach the device: the link has trained (R350). -/
def State.hostUp (s : State) : Bool := decide (s.fld .HOST_STAT [] F.HOST_STAT_WIDTH ≠ 0) && !s.perst
/-- Whether Terern holds mailboxes open: stages READY and LINKS (R350, Table 17-3). -/
def State.serving (s : State) : Bool :=
  decide (9 ≤ s.fld .FW_STAT [] F.FW_STAT_STAGE) && decide (s.fld .FW_STAT [] F.FW_STAT_STAGE ≤ 10)

/-- A completion to a host request, none to a posted one. -/
def State.hostDone (s : State) (a : HostAccess) (status : Nat) (data : Bytes) : State :=
  if a.posted then s else s.answer a.req status data

/-- The link's width and speed (HOST_STAT). -/
def State.setLink (s : State) (width speed : Nat) : State :=
  (s.setFld .HOST_STAT [] F.HOST_STAT_WIDTH width).setFld .HOST_STAT [] F.HOST_STAT_SPEED speed

/-- A mailbox becomes FREE with both rings emptied (R362). -/
def State.endMbox (s : State) (m : Nat) : State :=
  ((s.setReg .SESS [m] 0).setReg .MB_STAT [m] 0).modMbox m fun _ => Mbox.init

/-- PERST_N (R362, R363): the link is down, every session ends, the mailbox registers take their reset values. -/
def execPerstN (s : State) : Host.Outcome State Fault Refusal :=
  .next (let s := (List.range 16).foldl (fun s m => (s.endMbox m).setReg .MB_CNT [m] 0) { s with perst := true }
    s.setLink 0 0)

/-- PERST_N_DEASSERT (R348): HOST_CFG.BIF is latched. -/
def execPerstNDeassert (s : State) : Host.Outcome State Fault Refusal :=
  .next { s with perst := false, bifNow := s.fld .HOST_CFG [] F.HOST_CFG_BIF }

/-- HOST_LINK_DOWN (R362): down for 100 ms, every session ends. -/
def execHostLinkDown (s : State) : Host.Outcome State Fault Refusal :=
  .next (((List.range 16).foldl (fun s m => s.endMbox m) s).setLink 0 0)

/-- HOST_LINK_UP (R348, R350): the link trains once bring-up has reached stage HOST, at most as wide as the latched BIF lets it. -/
def execHostLinkUp (width speed : Nat) (s : State) : Host.Outcome State Fault Refusal :=
  .next (let g := s.fld .FW_STAT [] F.FW_STAT_STAGE
    if decide (8 ≤ g) && decide (g ≤ 10) && !s.perst then s.setLink (min width (if s.bifNow = 0 then 16 else 8)) speed else s)

/-! ### BAR2 (R352, R353) -/

/-- What a BAR2 offset maps to (Table 15-3). -/
inductive Bar2 where
  | pad (t a : Nat)
  | tower (r a : Nat)
  | none

/-- The target of a BAR2 offset. -/
def bar2At (off : Nat) : Bar2 :=
  if off < 0x120000000 then .pad (off / 0x400000) (off % 0x400000)
  else if off < 0x1000000000 then .none
  else if off < 0x4000000000 then .tower ((off - 0x1000000000) / 0x200000000) ((off - 0x1000000000) % 0x200000000)
  else .none

/-- The region of a BAR2 target. -/
def Bar2.region : Bar2 → Option Nat
  | .pad t _ => some (regionOf t)
  | .tower r _ => some r
  | .none => Option.none

/-- A dropped posted write: counted for its mailbox, and an event unless one was raised in the last ms (R353). -/
def State.hostDrop (s : State) (req : BitVec 16) (d : Option Nat) : State :=
  match s.session req with
  | none => s
  | some m =>
    let ms := 256000000
    let drops := ((s.mbox m).drops.filter fun w => decide (s.wt < w + ms)) ++ [s.wt]
    let due := match (s.mbox m).dropAt with
      | none => true
      | some w => decide (w + ms ≤ s.wt)
    let s := s.modMbox m fun b => { b with drops := drops, dropAt := if due then some s.wt else b.dropAt }
    if due then
      let e := eventEntry 2 [] 0 (natLe 2 7 ++ natLe 1 (d.getD 0xFF) ++ natLe 9 s.wt ++ natLe 2 drops.length)
      ((List.range 16).filter fun k => decide (k = m) || s.entitled k none).foldl (fun s k => s.post k e) s
    else s

/-- A BAR2 refusal: its status, the field that counts it (none for check 8). -/
abbrev Bar2Refusal := Nat × Option (Reg × Fld)

/-- A refused BAR2 access (Table 15-4). -/
def State.bar2Refuse (s : State) (a : HostAccess) (wr : Bool) (d : Option Nat) (x : Bar2Refusal) : State :=
  let s := match x.2 with
    | some (r, f) => s.incSat r [] f 1
    | none => s
  if wr && a.posted then s.hostDrop a.req d else s.answer a.req x.1 []

/-- Completer abort of checks 5 to 7. -/
def bar2Ca : Bar2Refusal := (2, some (.HOST_STAT, F.HOST_STAT_CA_CNT))

/-- Checks 1 to 4 at a BAR2 target (Table 15-4). -/
def State.bar2Check (s : State) (req : BitVec 16) (x : Bar2) : Option Bar2Refusal :=
  match x.region with
  | none => some (1, some (.HOST_STAT, F.HOST_STAT_UR_CNT))
  | some r =>
    match s.session req with
    | none => some (1, some (.HOST_STAT, F.HOST_STAT_UR_CNT))
    | some m =>
      if s.fld .SESS [m] F.SESS_KIND = 0 then some (1, some (.HOST_STAT, F.HOST_STAT_UR_CNT))
      else
        match s.polderOf r with
        | none => some (2, some (.HOST_STAT, F.HOST_STAT_HOST_DENY))
        | some d =>
          if s.tenant d ≠ s.fld .SESS [m] F.SESS_TENANT then some (2, some (.HOST_STAT, F.HOST_STAT_HOST_DENY))
          else if decide (s.polderState d = 0) || decide (s.polderState d = 3) then some (2, some (.DIKE_STAT, F.DIKE_STAT_BAR2_ABORT))
          else none

/-- The polder of a BAR2 target. -/
def State.bar2Polder (s : State) (x : Bar2) : Option Nat := x.region.bind s.polderOf

/-- Check 5: `n` bytes of a tower access that begins at `a0` are whole aligned lines below the capacity (R60). -/
def State.bar2Lines (s : State) (r a n : Nat) : Bool :=
  decide (a % 64 = 0) && decide (n % 64 = 0) && decide (64 ≤ n) && decide (a / 64 < s.twrLines r)

/-- A host ring of a tile that a pad address lies in (R49). -/
def Tile.hostRing (t : Tile) (a : Nat) : Option Nat :=
  (List.range 32).find? fun n =>
    let c := t.ring n
    decide (F.RING_CFG_EN.get c = 1) && decide (F.RING_CFG_HOSTW.get c = 1) && decide (F.RING_CFG_PROD.get c = 8) &&
      decide (F.RING_CFG_BASE.get c * 64 ≤ a) && decide (a < (F.RING_CFG_BASE.get c + F.RING_CFG_SIZE.get c) * 64)

/-- Whether `n` bytes at pad address `a` begin at the fill cursor of a host ring. -/
def Tile.atCursor (t : Tile) (n a : Nat) : Bool :=
  !t.ringFull n && decide (a = t.entryAddr n (t.tail n) + t.fld .RING_STAT [n] F.RING_STAT_FILL)

/-- Whether a host write of `k` bytes at pad address `a` into ring `n` is performed, R49: in the tail entry or in entries free at the start of
this fc (R43), not across the end of the tail entry. -/
def Tile.hostFits (t : Tile) (n a k : Nat) : Bool :=
  let c := t.ring n
  let base := F.RING_CFG_BASE.get c * 64
  let esz := ringEsz c; let sz := ringN c
  let i := (a - base) / esz; let j := (a - base + k - 1) / esz
  decide (a + k ≤ base + F.RING_CFG_SIZE.get c * 64) && decide (j < sz) &&
    ((List.range (j + 1 - i)).all fun e => decide (t.kept n ≤ (i + e + sz - t.headWas n) % sz)) &&
    !(decide (i ≤ t.tail n) && decide (t.tail n < j))

/-- Check 8 and what follows it: the fill cursor after `k` bytes of a host-ring write that began at it, up to address `e`; a full entry
is appended (R49). -/
def Tile.fillTo (t : Tile) (n e : Nat) : Tile :=
  let f := e - t.entryAddr n (t.tail n)
  if f < ringEsz (t.ring n) then t.setFld .RING_STAT [n] F.RING_STAT_FILL f
  else (t.setFld .RING_STAT [n] F.RING_STAT_FILL 0).advTail n 1

/-- How a write of several lines stands to the host ring it is in: not in one, within one, at its fill cursor. -/
inductive RingWay where
  | out
  | within (n : Nat)
  | cursor (n : Nat)

/-- Check 8 at a line: a write that enters a host ring is judged with all that is left of it. -/
def Tile.ringWay (t : Tile) (w : RingWay) (a left : Nat) : Option RingWay :=
  match t.hostRing a with
  | none => some .out
  | some n =>
    let enter := if t.hostFits n a left then some (if t.atCursor n a then .cursor n else .within n) else none
    match w with
    | .out => enter
    | .within m => if m = n then some w else enter
    | .cursor m => if m = n then some w else enter

/-- A BAR2 write from offset `off`, line by line (R353): the line in its slot (R29, R68), or the first refusal. -/
def State.bar2Store (a : HostAccess) : Nat → Nat → Bytes → RingWay → State → State
  | 0, _, _, _, s => s.hostDone a 0 []
  | k + 1, off, b, w, s =>
    if b.isEmpty then s.hostDone a 0 []
    else
      let x := bar2At off
      let d := s.bar2Polder x
      let no := fun s : State => s.bar2Refuse a true d
      match s.bar2Check a.req x with
      | some r => no s r
      | none =>
        match x with
        | .none => s
        | .tower r ta =>
          match s.physLine r (ta / 64) with
          | none => no s bar2Ca
          | some p =>
            if s.bar2Lines r ta b.length then
              (bar2Store a k (off + 64) (b.drop 64) .out (((s.lineSlot r p 2).twrWrite r p (b.take 64)).meterAdd (d.getD 0) 4 64))
            else no s bar2Ca
        | .pad t pa =>
          let n := min b.length (64 - pa % 64)
          let s := State.freeSlot t (pa / 64) 8 tries s
          if (s.tile t).liveLine (pa / 64) then no (s.modTile t fun x => x.padEvent F.PAD_ERR_LIVE (pa / 64) 8 0) bar2Ca
          else
            match (s.tile t).ringWay w pa b.length with
            | none => no (s.modTile t fun y => match y.hostRing pa with
                | some q => y.ringOver q
                | none => y) (2, none)
            | some w =>
              match s.padPut t pa (b.take n) 8 0 with
              | .ok _ s =>
                let s := match w with
                  | .cursor q => s.modTile t fun x => x.fillTo q (pa + n)
                  | _ => s
                bar2Store a k (off + n) (b.drop n) w (s.meterAdd (d.getD 0) 4 n)
              | .crc s => no s bar2Ca
              | .live s => no s bar2Ca

/-- A BAR2 read of `n` bytes from offset `off`, line by line (R353). -/
def State.bar2Load (a : HostAccess) : Nat → Nat → Nat → Bytes → State → State
  | 0, _, _, b, s => s.answer a.req 0 b
  | k + 1, off, n, b, s =>
    if n = 0 then s.answer a.req 0 b
    else
      let x := bar2At off
      let d := s.bar2Polder x
      let no := fun s : State => s.bar2Refuse a false d
      match s.bar2Check a.req x with
      | some r => no s r
      | none =>
        match x with
        | .none => s
        | .tower r ta =>
          match s.physLine r (ta / 64) with
          | none => no s bar2Ca
          | some p =>
            if s.bar2Lines r ta n then
              match (s.lineSlot r p 2).twrRead r p 1 0 with
              | (some c, s) => bar2Load a k (off + 64) (n - 64) (b ++ c) (s.meterAdd (d.getD 0) 4 64)
              | (none, s) => no s bar2Ca
            else no s bar2Ca
        | .pad t pa =>
          let i := min n (64 - pa % 64)
          match (State.freeSlot t (pa / 64) 8 tries s).padGet t pa i 8 0 with
          | .ok c s => bar2Load a k (off + i) (n - i) (b ++ c) (s.meterAdd (d.getD 0) 4 i)
          | .crc s => no s bar2Ca
          | .live s => no s bar2Ca

/-- A host access to a frozen device: completer abort, or dropped; HOSTREF counts (R419). -/
def State.hostRef (s : State) (a : HostAccess) (wr : Bool) : State :=
  let s := s.incSat .FRZ_STAT [] F.FRZ_STAT_HOSTREF 1
  if wr && a.posted then s else s.answer a.req 2 []

/-- Whether a BAR2 access goes to a tower in retention or waking, for which it waits (R71). -/
def State.twrAsleep (s : State) (off : Nat) : Bool :=
  match bar2At off with
  | .tower r _ => decide (s.fld .TWR_CFG [r] F.TWR_CFG_RET = 1)
  | _ => false

/-- A BAR2 access performed: a write of data, or a read of a length. -/
def State.bar2Go (s : State) (a : HostAccess) (len : Nat) (data : Option Bytes) : State :=
  let s := match bar2At a.off with
    | .pad t _ => s.routeFree 1168 t
    | .tower r _ => s.routeFree 1168 (1174 + r)
    | .none => s
  match data with
  | some b => s.bar2Store a (b.length / 64 + 2) a.off b .out
  | none => s.bar2Load a (len / 64 + 2) a.off len []

/-- A BAR2 access to a running device: performed, or put off to the wake of its tower (R71). -/
def State.bar2 (s : State) (a : HostAccess) (len : Nat) (data : Option Bytes) : State :=
  if s.twrAsleep a.off then { s with parked := s.parked ++ [(a, len, data)] } else s.bar2Go a len data

/-- The BAR2 accesses that waited for a tower and need wait no more (R71). -/
def State.unpark (s : State) : State :=
  let go := s.parked.filter fun p => !s.twrAsleep p.1.off
  go.foldl (fun s p => s.bar2Go p.1 p.2.1 p.2.2) { s with parked := s.parked.filter fun p => s.twrAsleep p.1.off }

/-- BAR2_READ (R352, R353). -/
def execBar2Read (a : HostAccess) (len : Nat) (s : State) : Host.Outcome State Fault Refusal :=
  .next (if !s.hostUp then s
    else if s.isFrozen then s.hostRef a false
    else s.bar2 a len none)

/-- BAR2_WRITE (R352, R353). -/
def execBar2Write (a : HostAccess) (data : Bytes) (s : State) : Host.Outcome State Fault Refusal :=
  .next (if !s.hostUp then s
    else if s.isFrozen then s.hostRef a true
    else s.bar2 a data.length (some data))

/-! ### Mailboxes (R351, R356 to R358, R360) -/

/-- Entries in a command ring. -/
def State.cmdOcc (s : State) (m : Nat) : Nat :=
  let h := s.fld .MB_STAT [m] F.MB_STAT_CHEAD + 16 * s.fld .MB_STAT [m] F.MB_STAT_CHW
  let t := s.fld .MB_STAT [m] F.MB_STAT_CTAIL + 16 * s.fld .MB_STAT [m] F.MB_STAT_CTW
  (t + 32 - h) % 32

/-- The command ring's tail entry is complete: CTAIL advances, FILL returns to 0. -/
def State.cmdAppend (s : State) (m : Nat) : State :=
  let n := (s.fld .MB_STAT [m] F.MB_STAT_CTAIL + 16 * s.fld .MB_STAT [m] F.MB_STAT_CTW + 1) % 32
  ((s.setFld .MB_STAT [m] F.MB_STAT_CTAIL (n % 16)).setFld .MB_STAT [m] F.MB_STAT_CTW (n / 16)).setFld .MB_STAT [m] F.MB_STAT_FILL 0

/-- The command ring's head entry is taken. -/
def State.cmdTake (s : State) (m : Nat) : State :=
  let n := (s.fld .MB_STAT [m] F.MB_STAT_CHEAD + 16 * s.fld .MB_STAT [m] F.MB_STAT_CHW + 1) % 32
  (s.setFld .MB_STAT [m] F.MB_STAT_CHEAD (n % 16)).setFld .MB_STAT [m] F.MB_STAT_CHW (n / 16)

/-- An event ring emptied for a new binding: its head at its tail. -/
def State.evDrop (s : State) (m : Nat) : State :=
  ((s.setFld .MB_STAT [m] F.MB_STAT_EHEAD (s.fld .MB_STAT [m] F.MB_STAT_ETAIL)).setFld .MB_STAT [m] F.MB_STAT_EHW
    (s.fld .MB_STAT [m] F.MB_STAT_ETW)).modMbox m fun b => { b with wait := [] }

/-- A FREE mailbox binds to a requester (R358). -/
def State.bind (s : State) (m : Nat) (req : BitVec 16) : State :=
  ((s.evDrop m).setFld .SESS [m] F.SESS_REQID req.toNat).modMbox m fun b => { b with bound := true }

/-- A write into a command ring at byte `i` (R356, with R49 and EDGE = 1). -/
def State.cmdWrite (s : State) (a : HostAccess) (m i : Nat) (data : Bytes) : State :=
  let e := i / 256
  let fill := 8 * s.fld .MB_STAT [m] F.MB_STAT_FILL
  if (e + 16 - s.fld .MB_STAT [m] F.MB_STAT_CHEAD) % 16 < s.cmdOcc m then
    (s.incSat .MB_CNT [m] F.MB_CNT_OVR_CNT 1).hostDone a 2 []
  else
    let s1 := s.setBytes (mboxAddr m i) data
    let s2 :=
      if decide (e = s.fld .MB_STAT [m] F.MB_STAT_CTAIL) && decide (i % 256 = fill) then
        let s1 := if decide (fill = 0) && !(s.mbox m).bound then s1.bind m a.req else s1
        if fill + data.length < 256 then s1.setFld .MB_STAT [m] F.MB_STAT_FILL ((fill + data.length) / 8) else s1.cmdAppend m
      else s1
    s2.hostDone a 0 []

/-- An unsupported request: counted, completed unless posted (R350, R351). -/
def State.hostUr (s : State) (a : HostAccess) : State := s.urCount.hostDone a 1 []

/-- Whether a requester may write into mailbox `m` (R350, R358, Table 15-2): its own, or the command ring of an unbound one. -/
def State.mboxOwn (s : State) (m : Nat) (req : BitVec 16) : Bool :=
  (s.mbox m).bound && decide (s.fld .SESS [m] F.SESS_REQID = req.toNat)

/-- MAILBOX_WRITE (R356, R358). -/
def execMailboxWrite (a : HostAccess) (data : Bytes) (s : State) : Host.Outcome State Fault Refusal :=
  .next (let m := (a.off - 0x2000000) / 0x10000
    let i := (a.off - 0x2000000) % 0x10000
    let n := data.length
    if !s.hostUp then s
    else if decide (a.off < 0x2000000) || decide (16 ≤ m) || !s.serving then s.hostUr a
    else if (s.mbox m).bound && !s.mboxOwn m a.req then (s.incSat .MB_CNT [m] F.MB_CNT_FOREIGN 1).hostDone a 1 []
    else if !(s.mbox m).bound && (s.session a.req).isSome then s.hostUr a
    else if decide (i + n ≤ 0x1000) && decide (8 ≤ n) && decide (n % 8 = 0) && decide (i % 8 = 0) && decide (i % 256 + n ≤ 256) then
      s.cmdWrite a m i data
    else s.hostUr a)

/-- A released event entry acknowledges the statement, certificate or seal it holds, if the operator releases it (R360). -/
def State.ackEntry (s : State) (m e : Nat) : State :=
  let b := s.bytes (mboxAddr m (0x1000 + 512 * e)) 512
  let ty := (byteAt b 0).toNat
  let body := slice b 16 (leNat (slice b 2 2))
  if decide (s.fld .SESS [m] F.SESS_STATE = 2) && decide (s.fld .SESS [m] F.SESS_KIND = 0) && decide (3 ≤ ty) then
    match s.retained.find? fun x => decide (x.2 = (ty, body)) with
    | some x => { s with retained := s.retained.erase x }
    | none => s
  else s

/-- `n` event entries released: acknowledged, EHEAD advanced, waiting events placed (R356, R360). -/
def State.evRelease (s : State) (m n : Nat) : State :=
  let h := s.fld .MB_STAT [m] F.MB_STAT_EHEAD + 64 * s.fld .MB_STAT [m] F.MB_STAT_EHW
  let s := (List.range n).foldl (fun s k => s.ackEntry m ((h + k) % 64)) s
  let h := (h + n) % 128
  State.evFlush m 64 ((s.setFld .MB_STAT [m] F.MB_STAT_EHEAD (h % 64)).setFld .MB_STAT [m] F.MB_STAT_EHW (h / 64))

/-- A write of COUNT to MB_EVREL by a requester (R356, R358). -/
def State.wrEvrel (s : State) (req : BitVec 16) (m n : Nat) : State :=
  if !s.serving then s.urCount
  else if s.mboxOwn m req then
    if s.fld .SESS [m] F.SESS_STATE = 0 then s.urCount
    else if s.evOcc m < n then s.setFld .MB_STAT [m] F.MB_STAT_UND 1
    else if n = 0 then s else s.evRelease m n
  else if (s.mbox m).bound then s.incSat .MB_CNT [m] F.MB_CNT_FOREIGN 1
  else s.urCount

/-- MB_EVREL (R356). -/
def execMbEvrel (req : BitVec 16) (m : MboxIx) (n : BitVec 32) (s : State) : Host.Outcome State Fault Refusal :=
  .next (if s.hostUp then s.wrEvrel req m (n.toNat % 128) else s)

end Sys2Proof.Machine
end

