-- ==== Sys2Proof/Machine/Reset.lean ====
section
/-! DEFINITION. Cold and warm reset (R10, R342, R347 and the reset rules of the chapters), supply and reference events (R405 to R415). -/
namespace Sys2Proof.Machine

/-! ### What a reset keeps -/

/-- A register copied from the state before the reset. -/
def State.keepReg (a s : State) (r : Reg) (i : List Nat) : State := a.setReg r i (s.reg r i)
/-- A field copied from the state before the reset. -/
def State.keepFld (a s : State) (r : Reg) (i : List Nat) (f : Fld) : State := a.setFld r i f (s.fld r i f)
/-- A register copied at every index of a list. -/
def State.keepAll (a s : State) (r : Reg) (n : Nat) : State := (List.range n).foldl (fun a k => a.keepReg s r [k]) a

/-- Whether a region is present and not retired (CAPS REGIONS). -/
def State.present (s : State) (r : Nat) : Bool := bit (s.fld .CAPS_REGIONS [] ⟨23, 0, .ro, 0⟩) r

/-- Registers that every reset keeps: PRES (R76), CAPS (R429), MSEQ (R347), FRZ_CNT (R424), and the states that show the regions and
rails (R424): the present regions are powered down, the others absent. -/
def State.keepRegs (a s : State) : State :=
  let a := (List.range 24).foldl (fun a k =>
    ((a.keepFld s .TWR_CFG [k] F.TWR_CFG_PRES).keepReg s .TWR_CAP [k]).setFld .REG_PWR [k] F.REG_PWR_STATE (if s.present k then 1 else 0)) a
  let a := (List.range 8).foldl (fun a d => a.keepReg s .MTR [d, 15]) a
  ((a.keepReg s .CAPS_REGIONS []).keepReg s .FRZ_CNT []).keepFld s .PWR_STAT [] F.PWR_STAT_GOOD

/-- The always-on flags of R415. -/
def State.keepFlags (a s : State) : State :=
  [F.PWR_STAT_TTRIP, F.PWR_STAT_ORDER, F.PWR_STAT_UVRST, F.PWR_STAT_CLKRST, F.PWR_STAT_RAIL].foldl (fun a f => a.keepFld s .PWR_STAT [] f) a

/-- The RWS fields, which a warm reset keeps (R10). -/
def State.keepRws (a s : State) : State :=
  let a := (List.range 16).foldl (fun a p =>
    (((a.keepReg s .TB_ASYM [p]).keepFld s .PORT_CNT [p] F.PORT_CNT_RPL_TOT).keepFld s .PORT_CNT [p] F.PORT_CNT_RETRAINS)) a
  a.keepFld s .HOST_CFG [] F.HOST_CFG_BIF

/-- The statements that the meters' keeper holds for the polders in use, to be signed after boot: those of the windows that have ended, and
the last with FINAL and RESET set (R342, R346). -/
def State.keeperTake (s : State) : List (Nat × Bytes) :=
  if s.lc = 3 then s.keeper
  else
    s.keeper ++ (List.range 8).flatMap fun d =>
      let mask := s.app .POLDER_CFG [d] F.POLDER_CFG_RMASK
      let r := (s.owed d).foldl (fun (r : List Bytes × Option Meter) w => match r.2 with
        | some m =>
          let now := w.meters.getD d []
          (r.1 ++ [s.stmtBody d m (nsWt w.ends) 0 now (w.masks.getD d 0) w.len], some ⟨nsWt w.ends, now, false⟩)
        | none => r) ([], s.meter d)
      let fin := match r.2 with
        | some m => [s.stmtBody d m s.wt 10 (s.mtr d) mask (s.app .METER_CFG [] F.METER_CFG_INTERVAL)]
        | none => []
      (r.1 ++ fin).map fun b => (d, b)

/-- The final statements formed at a quarantine instant and not yet delivered (R340, R346); a final seal goes with the SRAM (R10). -/
def State.wipeKept (s : State) : List (Option Nat × Nat × Bytes) :=
  (List.range 8).filterMap fun d =>
    match sget none s.wipes d with
    | some w => if w.stmt.isEmpty then none else some (some d, 3, w.stmt)
    | none => none

/-- Whole seconds with PWR_OK_AON high added to POH (Table 17-8). -/
def State.pohSettle (s : State) : State :=
  if s.aonOk && decide (s.pohAt < s.ns) then
    let n := (s.ns - s.pohAt) / 1000000000
    { s.lifeAdd 0 n with pohAt := s.pohAt + n * 1000000000 }
  else s

/-- The state that any reset leads to (R10): every register at its reset value but for those kept, every memory wiped but the flash, every
key, session, request, message and job gone; fuses, flash, retained statements, lifetime counters and the marks of the lifetime log stay. -/
def State.resetTo (s : State) : State :=
  let s := s.pohSettle
  let z := { State.reset with
    mem := s.mem.filter fun c => decide (flashAddr 0 ≤ c.1) && decide (c.1 < flashAddr 0x4000000)
    retired := s.retired, tenants := s.tenants, fuses := s.fuses, uioNo := s.uioNo, retained := s.retained ++ s.wipeKept
    cseq := s.cseq, gaps := s.gaps, keeper := s.keeperTake, resetAt := s.wt
    testMarks := s.testMarks, layerMarks := s.layerMarks, regionMarks := s.regionMarks, repairMarks := s.repairMarks
    cleared := s.cleared, life := s.life, flash := s.flash, thermTrip := s.thermTrip, clockStop := s.thermTrip, bifNow := s.bifNow
    perst := s.perst, aonOk := s.aonOk, pohAt := s.pohAt
    out := s.out, wt := s.wt, wtSub := s.wtSub, cal := s.cal, utcSet := s.utcSet, calFlash := s.calFlash, xtalOff := s.xtalOff
    free := s.free, timeNo := s.timeNo, pending := s.pending }
  let z := z.keepRegs s
  { z with windowEnd := z.nextWindow s.ns }

/-- Ports that stay RETIRED until cold reset (R257). -/
def State.keepRetired (a s : State) : State :=
  (List.range 16).foldl (fun a p => if s.portState p = 6 then a.setPortState p 6 else a) a

/-- Warm reset (R10). -/
def State.warm (s : State) : State := ((s.resetTo.keepFlags s).keepRws s).keepRetired s

/-- What is lost with VAON (R232, R346, R347, R403, R415): the always-on counters restart from what was last persisted, each MSEQ and the
certificate sequence 2^20 ahead of it; the keeper's statements are gone; the calendar is unset. -/
def State.vaonLoss (s : State) : State :=
  let s := (List.range 8).foldl (fun s d => s.setReg .MTR [d, 15] (BitVec.ofNat 64 (sget 0 s.flash.mseq d + 2 ^ 20))) s
  { s with
    cseq := s.flash.cseq + 2 ^ 20, gaps := List.range 8, keeper := [], life := s.flash.life, cal := s.calFlash, utcSet := false }

/-- Cold reset (R10, R234): by deassertion of PWR_OK_AON, or with VAON lost; wt restarts from the calendar. THERMTRIP_N is released (R415). -/
def State.cold (s : State) (vaonLost : Bool) : State :=
  let z := s.resetTo
  let z := if vaonLost then z.vaonLoss else z.keepFlags s
  let z := { z with wt := z.cal / 7, wtSub := 0, thermTrip := false, clockStop := false, xtalOff := false, aonOk := false }
  { z with windowEnd := z.nextWindow z.ns }

/-- COLD_RESET (R10). -/
def execColdReset (vaonLost : Bool) (s : State) : Host.Outcome State Fault Refusal := .next (s.cold vaonLost)
/-- WARM_RESET (R10). -/
def execWarmReset (s : State) : Host.Outcome State Fault Refusal := .next s.warm

/-- PWR_OK_AON_RISE (R389): bring-up starts at stage ROM. -/
def execPwrOkAonRise (s : State) : Host.Outcome State Fault Refusal :=
  .next (if s.aonOk then s else { s.setFld .FW_STAT [] F.FW_STAT_STAGE 1 with aonOk := true, pohAt := s.ns })

/-- WATCHDOG_EXPIRY (R383, R403, R422): a warm reset; suspended in a full freeze. -/
def execWatchdogExpiry (s : State) : Host.Outcome State Fault Refusal :=
  .next (if s.frzState = 3 then s else (s.lifeAdd 0xC0 1).warm)

/-! ### Rails and references -/

/-- RAIL in PWR_STAT with a flag. -/
def State.railFlag (s : State) (rail : Nat) (f : Fld) : State := (s.setFld .PWR_STAT [] F.PWR_STAT_RAIL rail).setFld .PWR_STAT [] f 1
/-- Whether a rail is in tolerance. -/
def State.railGood (s : State) (rail : Nat) : Bool := bit (s.fld .PWR_STAT [] F.PWR_STAT_GOOD) rail
/-- A rail in or out of tolerance (GOOD). -/
def State.setRail (s : State) (rail : Nat) (good : Bool) : State :=
  let g := s.fld .PWR_STAT [] F.PWR_STAT_GOOD
  s.setFld .PWR_STAT [] F.PWR_STAT_GOOD (g - (if bit g rail then 2 ^ rail else 0) + if good then 2 ^ rail else 0)

/-- RAIL_ORDER_VIOLATION (R408): a rail comes into tolerance while one before it is not: ORDER and RAIL; its domains stay in reset. -/
def execRailOrderViolation (rail : RailIx) (s : State) : Host.Outcome State Fault Refusal :=
  .next ((s.setRail rail true).railFlag rail F.PWR_STAT_ORDER)

/-- RAIL_LOSS (R408): a rail leaves tolerance: a warm reset with UVRST and RAIL; VAON's loss is a cold reset. -/
def execRailLoss (rail : RailIx) (s : State) : Host.Outcome State Fault Refusal :=
  .next (if rail.val = 0 then s.cold true else (s.warm.setRail rail false).railFlag rail F.PWR_STAT_UVRST)

/-- REFCLK_LOCK_LOSS (R413): a warm reset with CLKRST. -/
def execRefclkLockLoss (s : State) : Host.Outcome State Fault Refusal := .next (s.warm.setFld .PWR_STAT [] F.PWR_STAT_CLKRST 1)

/-- XTAL_STOP (R413): calendar and scrubber stop, ALERT_N is asserted; wall time goes on. -/
def execXtalStop (s : State) : Host.Outcome State Fault Refusal := .next { s with xtalOff := true }

/-- THERMAL_TRIP (R415): THERMTRIP_N latched, every fabric clock and the management clock stopped, TTRIP. -/
def execThermalTrip (s : State) : Host.Outcome State Fault Refusal :=
  .next { s.setFld .PWR_STAT [] F.PWR_STAT_TTRIP 1 with thermTrip := true, clockStop := true }

/-- ALERT_N (Table 18-6), with the I3C in-band interrupt (R416): asserted while a W1C flag of PWR_STAT or FRZ_STAT is set, while FROZEN, in RECOVERY, with the crystal stopped. -/
def State.alert (s : State) : Bool :=
  decide (s.fld .PWR_STAT [] ⟨31, 28, .w1c, 0⟩ ≠ 0) || decide (s.fld .PWR_STAT [] F.PWR_STAT_CFG_REJ = 1) ||
    decide (s.fld .FRZ_STAT [] F.FRZ_STAT_THREJ = 1) || s.isFrozen || decide (s.fld .FW_STAT [] F.FW_STAT_STAGE = 15) || s.xtalOff

end Sys2Proof.Machine
end

