-- ==== Sys2Proof/Machine/Keys.lean ====
section
/-! DEFINITION. Owners, tenants, key slots, debug consent, attestation, life cycle and anti-rollback: the key management objects
(R364 to R382). -/
namespace Sys2Proof.Machine

/-! ### Owners, tenants, tokens -/

/-- The digest of a byte string: the first 32 B of SHAKE256. -/
def digest32 (b : Bytes) : Bytes := shake256 b 32
/-- The digest of the active owner, the highest slot programmed (R368). -/
def State.owner? (s : State) : Option Bytes := s.fuses.owners.getLast?
/-- The active owner digest, zero if none. -/
def State.ownerDig (s : State) : Bytes := (s.owner?.map fun b => padTo b 32).getD (List.replicate 32 0)
/-- Whether bytes are all zero. -/
def allZero (b : Bytes) : Bool := b.all fun x => decide (x = 0)
/-- Whether a signature verifies under a tenant's key. -/
def State.tenantSigned (s : State) (t : Nat) (msg sig : Bytes) : Bool :=
  match s.tenantRec t with
  | some r => ed448Verify r.key msg sig
  | none => false
/-- Whether a signature verifies under an owner key that comes with it, named by the active owner digest (R368). -/
def State.ownerSigned (s : State) (key msg sig : Bytes) : Bool :=
  match s.owner? with
  | some d => decide (digest32 key = d) && ed448Verify key msg sig
  | none => false

/-- Whether a valid debug-consent token stands for a polder (R377). -/
def State.tokenValid (s : State) (d : Nat) : Bool :=
  match sget none s.tokens d with
  | none => false
  | some b =>
    decide (leNat (slice b 16 9) ≤ s.wt) && decide (s.wt < leNat (slice b 25 9)) &&
      (decide (s.polderState d = 1) || decide (s.polderState d = 2)) && decide (leNat (slice b 4 2) = s.tenant d)
/-- The SCOPE of a polder's token; 0 without a valid one. -/
def State.tokenScope (s : State) (d : Nat) : Nat :=
  if s.tokenValid d then (byteAt ((sget none s.tokens d).getD []) 3).toNat else 0

/-! ### Attestation (R376) -/

/-- The CAPS profile: 13 registers in ascending offset order (R176, R428). -/
def capsProfile : List Reg :=
  [.CAPS_ID, .CAPS_GRID, .CAPS_PAD, .CAPS_ACC, .CAPS_RINGS, .CAPS_QUEUES, .CAPS_HOP, .CAPS_TOWER, .CAPS_GUN, .CAPS_MXE, .CAPS_VXE,
   .CAPS_FORMATS, .CAPS_FREQ]
/-- The CAPS profile digest (R176). -/
def State.capsDig (s : State) : Bytes := shake256 (capsProfile.flatMap fun r => natLe 8 (s.reg r []).toNat) 16

/-- A list of numbers sorted by insertion. -/
def sortNat (l : List Nat) : List Nat :=
  l.foldl (fun a x => (a.filter fun y => decide (y ≤ x)) ++ [x] ++ a.filter fun y => decide (x < y)) []

/-- The KEYIDs of the slots bound to a polder, ascending, at most 16. -/
def State.keyIds (s : State) (d : Nat) : List Nat :=
  (sortNat ((List.range 256).filterMap fun k =>
    let id := s.fld .KEY_STAT [k] F.KEY_STAT_KEYID
    if s.keyBound k d (s.fld .KEY_STAT [k] F.KEY_STAT_TENANT) id then some id else none)).take 16

/-- The digest of the LIVE epoch slot of a polder; zero if none. -/
def State.liveDig (s : State) (d : Nat) : Bytes :=
  match (List.range 4).find? fun k => decide (s.fld .EP_SH [d, k] F.EP_SH_STATE = 3) with
  | some k => (List.range 8).flatMap fun i => natLe 8 (s.reg .EP_DIG [d, k, i]).toNat
  | none => List.replicate 64 0

/-- Bytes 184 to 359 of a report: the polder. -/
def State.reportPolder (s : State) (d : Nat) : Bytes :=
  let ids := s.keyIds d
  padTo ([BitVec.ofNat 8 d, BitVec.ofNat 8 (s.polderState d), BitVec.ofNat 8 (s.app .DET_CFG [d] F.DET_CFG_DET),
      BitVec.ofNat 8 ids.length] ++ natLe 2 (s.tenant d) ++ [0, 0] ++
    ((List.range 4).flatMap fun i => natLe 8 (s.reg .RCPT_PROG [d, i]).toNat) ++ s.liveDig d ++
    natLe 8 (s.fld .DBG_STAT [d] F.DBG_STAT_READS) ++ ids.flatMap fun i => natLe 4 i) 176

/-- An attestation report (Table 16-5); the polder fields zero where the requester may not see them. -/
def State.report (s : State) (d : Nat) (own : Bool) (nonce : Bytes) : Bytes :=
  let flags := s.fld .LC_STAT [] F.LC_STAT_UDSL + if own && s.tokenValid d then 2 else 0
  let owner := if s.fuses.owners.isEmpty then 0xFF else s.fuses.owners.length - 1
  let b := padTo ([0x30, 1, BitVec.ofNat 8 s.lc, BitVec.ofNat 8 owner, BitVec.ofNat 8 s.fuses.svn,
      BitVec.ofNat 8 (s.fld .LC_STAT [] F.LC_STAT_ISVN), (if s.boot.imageB then 1 else 0), BitVec.ofNat 8 flags] ++ devId ++
    padTo nonce 32 ++ natLe 9 s.wt ++ List.replicate 7 0 ++ padTo s.boot.mt 64 ++ s.ownerDig ++ s.capsDig ++
    natLe 8 Config.romId.toNat ++ if own then s.reportPolder d else List.replicate 176 0) 366
  padTo (b ++ s.sign "ZN4000 ALIAS" b) 480

/-! ### Objects (R367) -/

/-- A response to an object. -/
def State.doeAnswer (s : State) (obj : Bytes) (status : Nat) (body : Bytes) : State :=
  { s with out := s.out ++ [.doe (byteAt obj 0).toNat status body] }

/-- A refused object: REJ and its capture, REJ_CNT (R367, R382). -/
def State.doeRefuse (s : State) (obj : Bytes) (status : Nat) : State :=
  let w := s.reg .KM_STAT []
  let w := if F.KM_STAT_REJ.get w = 1 then w
    else F.KM_STAT_STATUS.set (F.KM_STAT_OBJ.set w (byteAt obj 0).toNat) status
  (((s.setReg .KM_STAT [] w).setFld .KM_STAT [] F.KM_STAT_REJ 1).incSat .KM_STAT [] F.KM_STAT_REJ_CNT 1).doeAnswer obj status []

/-- A signed object of `n` bytes of kind `code`: its signature is checked before anything else, and where it fails the answer is `st`; then
VER and the reserved bytes, otherwise BADCMD (R367). It reaches Terern over a trained link. -/
def State.doeSigned (s : State) (obj : Bytes) (code n : Nat) (rsvd : List (Nat × Nat)) (signed : Bool) (st : Nat) (k : State → State) : State :=
  if !s.hostUp then s
  else if decide (obj.length ≠ n) || decide (byteAt obj 0 ≠ BitVec.ofNat 8 code) then s.doeRefuse obj 4
  else if !signed then s.doeRefuse obj st
  else if decide (byteAt obj 1 = 1) && allZero (slice obj 2 2) && rsvd.all (fun r => allZero (slice obj r.1 r.2)) then k s
  else s.doeRefuse obj 4

/-- An object without a signature (GET_CERTS, ATTEST). -/
def State.doe (s : State) (obj : Bytes) (code n : Nat) (rsvd : List (Nat × Nat)) (k : State → State) : State :=
  s.doeSigned obj code n rsvd true 0 k

/-- Whether an object's DEVID field at byte `i` is this chip's. -/
def devIs (obj : Bytes) (i : Nat) : Bool := decide (slice obj i 8 = devId)

/-- GET_CERTS (R366). -/
def execGetCerts (obj : Bytes) (s : State) : Host.Outcome State Fault Refusal :=
  .next (s.doe obj 1 4 [] fun s => s.doeAnswer obj 0 s.boot.certs.flatten)

/-- DOE_ATTEST (R376): bytes 4 POLDER, 8 to 39 nonce; signed where the life-cycle state has an alias key (Table 16-7). -/
def execDoeAttest (obj : Bytes) (s : State) : Host.Outcome State Fault Refusal :=
  .next (s.doe obj 2 40 [(5, 3)] fun s =>
    let d := (byteAt obj 4).toNat
    if 7 < d then s.doeRefuse obj 4
    else if decide (s.lc = 2) || decide (s.lc = 3) then s.doeAnswer obj 0 (s.report d true (slice obj 8 32))
    else s.doeRefuse obj 5)

/-- A session ended with SESSION_ENDED cause 3 (Table 15-7). -/
def State.endSession (s : State) (m : Nat) : State :=
  if s.fld .SESS [m] F.SESS_STATE = 0 then s.endMbox m else (s.endMbox m).event 8 none [BitVec.ofNat 8 m, 3]

/-- Every session of a tenant ended (R369). -/
def State.endTenant (s : State) (t : Nat) : State :=
  ((List.range 16).filter fun m => decide (s.fld .SESS [m] F.SESS_STATE ≠ 0) && decide (s.fld .SESS [m] F.SESS_KIND = 1) &&
    decide (s.fld .SESS [m] F.SESS_TENANT = t)).foldl (fun s m => s.endSession m) s

/-- REG_TENANT (R369): 4 TENANT, 8 DEVID, 16 RSEQ, 24 tenant key, 81 publisher key, 138 owner key, 195 SIG over bytes 0 to 194. -/
def execRegTenant (obj : Bytes) (s : State) : Host.Outcome State Fault Refusal :=
  .next (s.doeSigned obj 0x10 309 [(6, 2), (20, 4)] (s.ownerSigned (slice obj 138 57) (slice obj 0 195) (slice obj 195 114)) 2 fun s =>
    let t := leNat (slice obj 4 2)
    let q := leNat (slice obj 16 4)
    let r : TenantRec := ⟨t, q, slice obj 24 57, slice obj 81 57⟩
    let others := s.tenants.filter fun x => decide (x.tenant ≠ t)
    if t = 0 then s.doeRefuse obj 4
    else if !(devIs obj 8 || allZero (slice obj 8 8)) || decide (s.lc ≠ 2) || decide (1024 ≤ others.length) ||
        (s.tenants.any fun x => decide (x.tenant = t) && decide (q ≤ x.rseq)) then s.doeRefuse obj 5
    else
      let s := { s with tenants := others ++ [r] }
      (if allZero r.key && allZero r.pub then s.endTenant t else s).doeAnswer obj 0 [])

/-- The agreement key pair of the chip (Table 16-1): private, public. -/
def State.agree (s : State) : Bytes × Bytes :=
  let p := shake256 (ascii "ZN4000 AGREE" ++ s.boot.cdi) 56
  (p, x448 p (5 :: List.replicate 55 0))

/-- The key in a wrapped key record, if its tag holds (R372). -/
def State.unwrap (s : State) (r : Bytes) : Option Bytes :=
  let a := s.agree
  let eph := slice r 40 56
  let kek := shake256 (ascii "ZN4000 KEK" ++ x448 a.1 eph ++ eph ++ a.2 ++ slice r 0 40) 32
  let iv := List.replicate 12 0
  let ct := slice r 96 32
  if gcmTag kek iv (slice r 0 40) ct = slice r 128 16 then some (gcmCrypt kek iv ct) else none

/-- LOAD_KEY (R372, R373): the record of Table 16-4 from byte 4 on. -/
def execLoadKey (obj : Bytes) (s : State) : Host.Outcome State Fault Refusal :=
  .next (let r := obj.drop 4
    let t := leNat (slice r 2 2)
    s.doeSigned obj 0x11 276 [(21, 7), (37, 7), (262, 14)] (s.tenantSigned t (slice r 0 144) (slice r 144 114)) 2 fun s =>
    let k := (byteAt r 16).toNat
    if decide (byteAt r 0 ≠ 0x20) || decide (byteAt r 1 ≠ 1) then s.doeRefuse obj 4
    else if decide (s.lc ≠ 2) || !devIs r 8 || decide (leNat (slice r 24 9) ≤ s.wt) ||
        decide (s.fld .KEY_STAT [k] F.KEY_STAT_LOADED = 1) then s.doeRefuse obj 5
    else
      match s.unwrap r with
      | none => s.doeRefuse obj 5
      | some key =>
        let w := F.KEY_STAT_KEYID.set (F.KEY_STAT_TENANT.set (F.KEY_STAT_LOADED.set (s.reg .KEY_STAT [k]) 1) t) (leNat (slice r 4 4))
        let s := { s.setReg .KEY_STAT [k] w with keys := sput [] s.keys k key }
        (s.incSat .KM_STAT [] F.KM_STAT_LOAD_CNT 1).doeAnswer obj 0 [])

/-- ERASE_KEY (Table 16-3): 4 SLOT, 8 DEVID, 16 signer (0 tenant, 1 owner), 24 owner key, 81 SIG over bytes 0 to 80. -/
def execEraseKey (obj : Bytes) (s : State) : Host.Outcome State Fault Refusal :=
  .next (let k := (byteAt obj 4).toNat
    let msg := slice obj 0 81; let sig := slice obj 81 114
    let signed := if byteAt obj 16 = 1 then s.ownerSigned (slice obj 24 57) msg sig
      else decide (s.fld .KEY_STAT [k] F.KEY_STAT_LOADED = 1) && s.tenantSigned (s.fld .KEY_STAT [k] F.KEY_STAT_TENANT) msg sig
    s.doeSigned obj 0x12 195 [(5, 3), (17, 7)] signed 2 fun s =>
    if 1 < (byteAt obj 16).toNat then s.doeRefuse obj 4
    else if !devIs obj 8 || decide (s.fld .KEY_STAT [k] F.KEY_STAT_INUSE ≠ 0) then s.doeRefuse obj 5
    else { s.setReg .KEY_STAT [k] 0 with keys := sput [] s.keys k [] }.doeAnswer obj 0 [])

/-- DEBUG_TOKEN (R378): the token of Table 16-6 from byte 4 on. -/
def execDebugToken (obj : Bytes) (s : State) : Host.Outcome State Fault Refusal :=
  .next (let b := obj.drop 4
    s.doeSigned obj 0x13 180 [(10, 2), (38, 6), (166, 14)] (s.tenantSigned (leNat (slice b 4 2)) (slice b 0 48) (slice b 48 114)) 2 fun s =>
    let d := (byteAt b 2).toNat
    let n := leNat (slice b 40 8)
    if decide (byteAt b 0 ≠ 0x40) || decide (byteAt b 1 ≠ 1) || decide (7 < d) || decide (3 < (byteAt b 3).toNat) then s.doeRefuse obj 4
    else if !devIs b 8 || decide (n < sget 0 s.serials d) then s.doeRefuse obj 5
    else { s with tokens := sput none s.tokens d (some b), serials := sput 0 s.serials d (n + 1) }.doeAnswer obj 0 [])

/-! ### Life cycle (R379, R380) -/

/-- Whether Table 16-7 lets a request signed by `key` take the chip from its state to `target`. -/
def State.lcSigned (s : State) (target : Nat) (key msg sig : Bytes) : Bool :=
  let mfg := decide (key = Config.mfgKey) && ed448Verify key msg sig
  match s.lc, target with
  | 0, 1 => mfg
  | 1, 2 => ed448Verify key msg sig
  | 1, 4 => mfg
  | 2, 2 => s.ownerSigned key msg sig
  | 2, 3 => s.ownerSigned key msg sig
  | 2, 4 => s.ownerSigned key msg sig
  | 3, 4 => mfg
  | _, _ => false

/-- The fuses after a transition: UDS generated, owner slot programmed, state, UDS overwritten (R364, R379, R380). -/
def State.lcFuses (s : State) (target : Nat) (key dig : Bytes) : Fuses :=
  let f := s.fuses
  { f with
    lc := target
    owners := if decide (target = 2) then f.owners ++ [if f.lc = 1 then digest32 key else dig] else f.owners
    udsGen := if target = 1 then some s.free else f.udsGen
    udsGone := f.udsGone || decide (target = 4) }

/-- The steps of a transition (R380). -/
def State.transition (s : State) (target : Nat) (key dig : Bytes) : State :=
  let s := (List.range 16).foldl (fun s m => s.endSession m) s
  let c := s.wipeCert 2 0xFF 0 s.wt s.wt (s.fld .CAPS_REGIONS [] ⟨23, 0, .ro, 0⟩) 0 0 []
  let s := c.2.retain none 4 c.1
  let f := s.lcFuses target key dig
  let ten := if decide (s.lc = 2) && decide (target = 2) then [] else s.tenants
  let cert := if target = 1 then Config.deviceCert else s.flash.cert
  let s := { s.useFree with fuses := f, tenants := ten, flash := { s.flash with cert := cert } }
  let z := s.cold false
  { z with aonOk := s.aonOk, pohAt := z.ns }

/-- LC_REQUEST (R380): 4 TARGET, 8 DEVID, 16 new owner digest, 48 signer's key, 105 SIG over bytes 0 to 104. -/
def execLcRequest (obj : Bytes) (s : State) : Host.Outcome State Fault Refusal :=
  .next (let target := (byteAt obj 4).toNat
    let key := slice obj 48 57
    s.doeSigned obj 0x20 219 [(5, 3)] (s.lcSigned target key (slice obj 0 105) (slice obj 105 114)) 5 fun s =>
    let busy := (List.range 8).any fun d => decide (s.polderState d ≠ 0)
    let full := decide (s.lc = 2) && decide (target = 2) && decide (4 ≤ s.fuses.owners.length)
    if !devIs obj 8 || busy || full then s.doeRefuse obj 5
    else (s.doeAnswer obj 0 []).transition target key (slice obj 16 32))

/-! ### Anti-rollback (R381) -/

/-- Where an image slot begins in flash (Table 17-2). -/
def imageAt (slotB : Bool) : Nat := flashAddr (if slotB then 0x1100000 else 0x100000)

/-- ADVANCE_SVN (R381): 4 the value, 5 FORCE, 8 DEVID, 16 owner key, 73 SIG over bytes 0 to 72. -/
def execAdvanceSvn (obj : Bytes) (s : State) : Host.Outcome State Fault Refusal :=
  .next (s.doeSigned obj 0x21 187 [(6, 2)] (s.ownerSigned (slice obj 16 57) (slice obj 0 73) (slice obj 73 114)) 2 fun s =>
    let v := (byteAt obj 4).toNat
    let other := (s.byte (imageAt (!s.boot.imageB) + 4)).toNat
    if 1 < (byteAt obj 5).toNat then s.doeRefuse obj 4
    else if !devIs obj 8 || decide (64 < v) || decide (s.fld .LC_STAT [] F.LC_STAT_ISVN < v) || decide (v ≤ s.fuses.svn) ||
        (decide (other < v) && decide (byteAt obj 5 = 0)) then s.doeRefuse obj 5
    else ({ s with fuses := { s.fuses with svn := v } }.setFld .LC_STAT [] F.LC_STAT_SVNCNT v).doeAnswer obj 0 [])

end Sys2Proof.Machine
end

