-- ==== Sys2Proof/Machine/Region.lean ====
section
/-! DEFINITION. Region power states: wake, sleep, and the repairs and retirements that take effect at a region reset (R73, R341, R390,
R391, R394, R395, R411, R412, R429). -/
namespace Sys2Proof.Machine

/-! ### Repair and retirement -/

/-- TWR_CAP of a region after its present layers (R60, R429). -/
def State.setCap (s : State) (r : Nat) : State :=
  s.setReg .TWR_CAP [r] (BitVec.ofNat 64 (s.twrLines r * 2 ^ 32 + (s.layers r).length))

/-- A region retired: ABSENT, out of CAPS, listed in flash (R391, R394). -/
def State.retireRegion (s : State) (r : Nat) : State :=
  let m := s.fld .CAPS_REGIONS [] ⟨23, 0, .ro, 0⟩
  let s := s.setFld .CAPS_REGIONS [] ⟨23, 0, .ro, 0⟩ (m - if bit m r then 2 ^ r else 0)
  let s := (s.setFld .REG_PWR [r] F.REG_PWR_STATE 0).setReg .TWR_CAP [r] 0
  let s := (s.setFld .REG_CLK [r] F.REG_CLK_AWAKE 0).setFld .REG_CLK [r] F.REG_CLK_LOCK 0
  { s with flash := { s.flash with absent := r :: s.flash.absent.filter (· ≠ r) } }

/-- A physical layer mapped out and persisted (R73); without another the region is retired. -/
def State.mapOut (s : State) (r p : Nat) : State :=
  let m := s.fld .TWR_CFG [r] F.TWR_CFG_PRES
  let n := m - if bit m p then 2 ^ p else 0
  if n = 0 then s.retireRegion r
  else
    let s := (s.setFld .TWR_CFG [r] F.TWR_CFG_PRES n).modTower r fun t => { t with stale := true }
    { s with flash := { s.flash with pres := sput 15 s.flash.pres r n } }

/-- The repair map's key of a tile: its region row (R391). -/
def rowKeyOf (t : Nat) : Nat := 6 * regionOf t + tileY t % 6

/-- A tile's column entered in the repair map; a second repair in one region row retires the region (R15, R390). -/
def State.repairTile (s : State) (t : Nat) : State :=
  if sget 0 s.flash.repair (rowKeyOf t) = 0 then
    { s with flash := { s.flash with repair := sput 0 s.flash.repair (rowKeyOf t) (tileX t % 8 + 1) } }
  else s.retireRegion (regionOf t)

/-- Everything marked for a region's next reset performed (R395): layers mapped out, tiles repaired, the region retired. -/
def State.applyMarks (s : State) (r : Nat) : State :=
  let ls := s.layerMarks.filter fun l => decide (l / 4 = r)
  let ts := s.repairMarks.filter fun t => decide (regionOf t = r)
  let gone := s.regionMarks.contains r
  let s := { s with
    layerMarks := s.layerMarks.filter fun l => decide (l / 4 ≠ r)
    repairMarks := s.repairMarks.filter fun t => decide (regionOf t ≠ r)
    regionMarks := s.regionMarks.filter (· ≠ r) }
  let s := if gone then s.retireRegion r else s
  let s := ls.foldl (fun s l => if s.present r then s.mapOut r (l % 4) else s) s
  let s := ts.foldl (fun s t => if s.present r then s.repairTile t else s) s
  if s.present r then s.setCap r else s

/-! ### Wake and sleep (R411, R412) -/

/-- STATE of a region (Table 18-3): 0 ABSENT, 1 SLEEP, 2 WAKING, 3 AWAKE. -/
def State.regState (s : State) (r : Nat) : Nat := s.fld .REG_PWR [r] F.REG_PWR_STATE

/-- Queued wakes started while fewer than four regions wake. -/
def State.startWakes : Nat → State → State
  | 0, s => s
  | k + 1, s =>
    match s.wakeQ with
    | [] => s
    | r :: rs =>
      if s.waking.length < 4 then
        State.startWakes k ({ s with wakeQ := rs, waking := s.waking ++ [(r, s.wt + 20000 * 256)] }.setFld .REG_PWR [r] F.REG_PWR_STATE 2)
      else s

/-- A power write ignored (R411). -/
def State.pwrRej (s : State) : State := s.setFld .PWR_STAT [] F.PWR_STAT_CFG_REJ 1

/-- WAKE (R411): a sleeping region wakes, or queues behind four that wake. -/
def State.wakeReg (s : State) (r : Nat) : State :=
  if decide (s.regState r = 1) && !s.wakeQ.contains r then State.startWakes 4 { s with wakeQ := s.wakeQ ++ [r] } else s.pwrRej

/-- SLEEP (R411): an AWAKE region of no polder powers down. -/
def State.sleepReg (s : State) (r : Nat) : State :=
  if decide (s.regState r = 3) && (s.polderOf r).isNone then s.sleepRegion r else s.pwrRej

/-- REG_PWR (R411): management core only; WAKE and SLEEP together are ignored. -/
def State.wrRegPwr (src : Writer) (r : Nat) (v : W64) (s : State) : State :=
  if !isMgmt src then s
  else
    match F.REG_PWR_WAKE.get v, F.REG_PWR_SLEEP.get v with
    | 0, 0 => s
    | 1, 0 => s.wakeReg r
    | 0, 1 => s.sleepReg r
    | _, _ => s.pwrRej

/-- REGION_WAKE (R411): a write of WAKE. -/
def execRegionWake (src : Writer) (r : RegionIx) (s : State) : Host.Outcome State Fault Refusal :=
  .next (s.chipBy src (State.wrRegPwr src r 1))

/-- REGION_SLEEP (R411): a write of SLEEP. -/
def execRegionSleep (src : Writer) (r : RegionIx) (s : State) : Host.Outcome State Fault Refusal :=
  .next (s.chipBy src (State.wrRegPwr src r 2))

/-- A region AWAKE: PLL locked, clocked, its tower out of retention (R411). -/
def State.setAwake (s : State) (r : Nat) : State :=
  let s := (s.setFld .REG_PWR [r] F.REG_PWR_STATE 3).setFld .TWR_CFG [r] F.TWR_CFG_RET 0
  (s.setFld .REG_CLK [r] F.REG_CLK_AWAKE 1).setFld .REG_CLK [r] F.REG_CLK_LOCK 1

/-- The polders whose WFAIL marks a region (R341). -/
def State.wfailOf (s : State) (r : Nat) : List Nat := (List.range 8).filter fun d => bit (s.fld .POLDER_STAT [d] F.POLDER_STAT_WFAIL) r

/-- A second wipe of a region marked in WFAIL: the mark is cleared and a certificate of its own signed (R341). -/
def State.rewipe (s : State) (r : Nat) : State :=
  let s0 := if (s.wfailOf r).isEmpty then s else s.wipeRegion r
  (s.wfailOf r).foldl (fun s d =>
    let s := s.setFld .POLDER_STAT [d] F.POLDER_STAT_WFAIL (s.fld .POLDER_STAT [d] F.POLDER_STAT_WFAIL - 2 ^ r)
    let c := s.wipeCert 0 d 0 s.wt s.wt (2 ^ r) 0 0 []
    c.2.retain none 4 c.1) s0

/-- REGION_AWAKE (R341, R391, R395, R411, R412): 20 µs after its WAKE the region has applied what was marked for it and holds wiped tiles.
`pass` is the outcome of the test of a row with a pending repair, of a tile under suspicion, or of the second wipe: a repaired row that
fails again retires the region, a tile that fails is marked for repair, a wipe that fails leaves the mark; the region sleeps again. -/
def execRegionAwake (r : RegionIx) (pass : Bool) (s : State) : Host.Outcome State Fault Refusal :=
  .next (match s.waking.find? fun w => decide (w.1 = r.val) with
    | none => s
    | some w =>
      let s := s.toWt w.2
      let s := { s with waking := s.waking.filter fun x => decide (x.1 ≠ r.val) }
      let rep := s.repairMarks.any fun t => decide (regionOf t = r)
      let sus := s.testMarks.filter fun t => decide (regionOf t = r)
      let s := { s with testMarks := s.testMarks.filter fun t => decide (regionOf t ≠ r) }.applyMarks r
      let s :=
        if !s.present r then s
        else if pass then (((tilesOf r).foldl State.wipeTile s).rewipe r).setAwake r
        else if rep then s.retireRegion r
        else if sus.isEmpty && (s.wfailOf r).isEmpty then ((tilesOf r).foldl State.wipeTile s).setAwake r
        else { s with repairMarks := s.repairMarks ++ sus }.sleepRegion r
      (State.startWakes 4 s).unpark)

end Sys2Proof.Machine
end

