-- ==== Sys2Proof/Machine/Bringup.lean ====
section
/-! DEFINITION. Boot and bring-up: the ROM's choice of an image and the stages of Table 17-3 (R364 to R366, R385 to R391, R394). -/
namespace Sys2Proof.Machine

/-! ### Images (R386) -/

/-- LEN of an image header. -/
def imageLen (img : Bytes) : Nat := leNat (slice img 8 4)
/-- The longest code of an image. -/
def imageMax : Nat := 0x1000000 - 512
/-- M_T as an image's header carries it. -/
def imageMt (img : Bytes) : Bytes := slice img 16 64
/-- Whether the ROM accepts an image (R386). -/
def State.imageOk (s : State) (img : Bytes) : Bool :=
  decide (leNat (slice img 0 4) = 0x7E2E0017) && decide (imageLen img ≤ imageMax) &&
    ed448Verify Config.fwKey (slice img 0 384) (slice img 384 114) &&
    decide (shake256 (slice img 0 16 ++ slice img 512 (imageLen img)) 64 = imageMt img) &&
    decide (s.fuses.svn ≤ (byteAt img 4).toNat)
/-- The image in a slot of the flash. -/
def State.imageIn (s : State) (slotB : Bool) : Bytes :=
  let h := s.bytes (imageAt slotB) 512
  h ++ s.bytes (imageAt slotB + 512) (min (imageLen h) imageMax)

/-- What the boot record says (R387): the record as the ROM leaves it (pref, trial, tries), the candidates in order, a rollback. -/
def State.bootPlan (s : State) : (Bool × Bool × Nat) × List Bool × Bool :=
  let f := s.flash
  if f.trial then
    if 0 < f.tries then ((f.prefB, true, f.tries - 1), [f.prefB, !f.prefB], false)
    else ((!f.prefB, false, 0), [!f.prefB], true)
  else ((f.prefB, false, f.tries), [f.prefB, !f.prefB], false)

/-! ### Identity (R364 to R366) -/

/-- The UDS as the ROM reads it: overwritten at SCRAPPED, generated at PROVISIONED, else what the fuses hold. -/
def State.udsBytes (s : State) : Bytes :=
  if s.fuses.udsGone then List.replicate 32 0
  else match s.fuses.udsGen with
    | some n => natLe 32 (Config.freeValue n).toNat
    | none => natLe 32 Config.uds.toNat

/-- CDI of an image (R365). -/
def State.cdiOf (s : State) (img : Bytes) : Bytes :=
  shake256 (ascii "ZN4000 CDI" ++ s.udsBytes ++ imageMt img ++ [byteAt img 4, BitVec.ofNat 8 s.lc] ++ s.ownerDig) 64

/-- A certificate (Table 16-2) for a public key, signed by a private key whose public key is `issuer`. -/
def State.certOf (s : State) (usage : Nat) (pub key issuer : Bytes) : Bytes :=
  let b := padTo ([0x10, 1, BitVec.ofNat 8 usage, BitVec.ofNat 8 s.lc, BitVec.ofNat 8 (s.fld .LC_STAT [] F.LC_STAT_ISVN), 0, 0, 0] ++ devId ++
    padTo pub 57 ++ List.replicate 7 0 ++ padTo s.boot.mt 64 ++ shake256 issuer 8 ++ s.ownerDig) 192
  padTo (b ++ ed448Sign key b) 320

/-- Whether a life-cycle state has the `k`-th certificate of the chain (Table 16-7, Identity). -/
def certIn (lc k : Nat) : Bool :=
  decide (lc = 2) || (decide (lc = 3) && decide (k < 2)) || (decide (lc = 1) && decide (k = 0))

/-- The six certificates in the order of GET_CERTS; zero where the life-cycle state has none. -/
def State.certChain (s : State) : List Bytes :=
  let ap := s.privKey "ZN4000 ALIAS"
  let aq := ed448Public ap
  let op := fun (u : Nat) (l : String) => s.certOf u (ed448Public (s.privKey l)) ap aq
  let all := [padTo s.flash.cert 320, s.certOf 2 aq s.boot.devKey (ed448Public s.boot.devKey), op 3 "ZN4000 METER",
    op 4 "ZN4000 WIPE", op 5 "ZN4000 RECEIPT", s.certOf 6 s.agree.2 ap aq]
  (List.range 6).map fun k => if certIn s.lc k then all.getD k [] else List.replicate 320 0

/-- LC_STAT from the fuses, with UDS_LOCK and the running image's SVN (R364, Table 16-9). -/
def State.showLc (s : State) (udsl isvn : Nat) : State :=
  let f := s.fuses
  let w := F.LC_STAT_OWNED.set (F.LC_STAT_OWNER.set (F.LC_STAT_LC.set 0 f.lc) (f.owners.length - 1)) (if f.owners.isEmpty then 0 else 1)
  s.setReg .LC_STAT [] (F.LC_STAT_ISVN.set (F.LC_STAT_SVNCNT.set (F.LC_STAT_UDSL.set w udsl) f.svn) isvn)

/-! ### Stages (Table 17-3) -/

/-- STAGE of bring-up. -/
def State.stageNow (s : State) : Nat := s.fld .FW_STAT [] F.FW_STAT_STAGE
/-- STAGE written. -/
def State.setStage (s : State) (n : Nat) : State := s.setFld .FW_STAT [] F.FW_STAT_STAGE n
/-- Whether the management core runs Terern: past the ROM, not in RECOVERY, its clock not stopped (R387, R415, R422). -/
def State.terern (s : State) : Bool := decide (2 ≤ s.stageNow) && decide (s.stageNow ≤ 10) && decide (s.frzState ≠ 3) && !s.thermTrip
/-- A stage's work, done while that stage is current; the next stage follows (R389). -/
def State.inStage (s : State) (n : Nat) (k : State → State) : State :=
  if decide (s.stageNow = n) && s.aonOk && !s.thermTrip then (k s).setStage (n + 1) else s

/-- The regions present. -/
def State.presentRegions (s : State) : List Nat := (List.range 24).filter s.present

/-- An image started from a slot (R387): boot record, FW_STAT, keys, UDS_LOCK, the interface version that R359 checks. -/
def State.startImage (s : State) (rec : Bool × Bool × Nat) (rollback slotB : Bool) : State :=
  let img := s.imageIn slotB
  let s := { s with flash := { s.flash with prefB := rec.1, trial := rec.2.1, tries := rec.2.2 } }.lifeAdd 0xC1 1
  let onTrial := rec.2.1 && decide (slotB = rec.1)
  let w := F.FW_STAT_TRIAL.set (F.FW_STAT_IMAGE.set (s.reg .FW_STAT []) (if slotB then 1 else 0)) (if onTrial then 1 else 0)
  let s := s.setReg .FW_STAT [] (F.FW_STAT_ROLLBK.set (F.FW_STAT_TRIES.set w rec.2.2) (if rollback then 1 else 0))
  let boot : Boot := ⟨imageMt img, s.cdiOf img, shake256 (ascii "ZN4000 DEVICE" ++ s.udsBytes) 57, [], slotB⟩
  let s := { s with boot := boot }.showLc 1 (byteAt img 4).toNat
  (s.setFld .HOST_ID [] F.HOST_ID_IFMAJ (byteAt img 6).toNat).setFld .HOST_ID [] F.HOST_ID_IFMIN (byteAt img 5).toNat

/-- STAGE_ROM (R387): the first candidate that is accepted starts; with none the chip enters RECOVERY. -/
def execStageRom (s : State) : Host.Outcome State Fault Refusal :=
  .next (if !(decide (s.stageNow = 1) && s.aonOk && !s.thermTrip) then s
    else
      let p := s.bootPlan
      match p.2.1.find? fun b => s.imageOk (s.imageIn b) with
      | some b => (s.startImage p.1 p.2.2 b).setStage 2
      | none => s.setStage 15)

/-- Stored guardband of a half in mV (R402, Table 17-8). -/
def State.guardband (s : State) (h : Nat) : Nat := bits (sget 0 s.life 1) (16 * h + 15) (16 * h)
/-- A core set-point with its guardband; in Locked mode both halves have the higher one (R225, R409). -/
def State.coreSet (s : State) (h : Nat) : Nat :=
  let g := if s.fld .SEAM_STAT [] F.SEAM_STAT_MODEA = 0 then max (s.guardband 0) (s.guardband 1) else s.guardband h
  750 + g

/-- STAGE_SUPPLY (R389, R402, R406): the set-points with the stored guardbands; it ends when every rail is in tolerance. -/
def execStageSupply (s : State) : Host.Outcome State Fault Refusal :=
  .next (s.inStage 2 fun s =>
    let s := (s.setFld .AVS_SET [0] F.AVS_SET_MV 800).setFld .AVS_SET [1] F.AVS_SET_MV (s.coreSet 0)
    (s.setFld .AVS_SET [2] F.AVS_SET_MV (s.coreSet 1)).setFld .PWR_STAT [] F.PWR_STAT_GOOD 0x7F)

/-- STAGE_CLOCK (R389, R216): the PLLs of the present regions lock. The timebase took the calendar at the reset (R232). -/
def execStageClock (s : State) : Host.Outcome State Fault Refusal :=
  .next (s.inStage 3 fun s => s.presentRegions.foldl (fun s r => s.setFld .REG_CLK [r] F.REG_CLK_LOCK 1) s)

/-- STAGE_WIPE (R10, R389): every present region wakes and is wiped; the certificate of KEYS names the wt of its end (R342). -/
def execStageWipe (s : State) : Host.Outcome State Fault Refusal :=
  .next (s.inStage 4 fun s => { s.presentRegions.foldl (fun s r => (s.wipeRegion r).setAwake r) s with wipedAt := s.wt })

/-- A region that LIST_CLEAR has cleared, after its BIST (R394): if it passed it is present again, and those of its layers that passed are. -/
def State.clearTest (s : State) (x : BistResult) (r : Nat) : State :=
  let ok := !(x.tiles.any fun t => decide (regionOf t = r)) && !(x.plls.any fun p => decide (p.val = r))
  let back := s.flash.absent.contains r && ok
  if s.flash.absent.contains r && !ok then s
  else
  let s := if back then
      let f := s.flash
      { (s.setFld .CAPS_REGIONS [] ⟨23, 0, .ro, 0⟩ (s.fld .CAPS_REGIONS [] ⟨23, 0, .ro, 0⟩ ||| 2 ^ r)) with
        flash := { f with absent := f.absent.filter (· ≠ r) } }
    else s
  let was := s.fld .TWR_CFG [r] F.TWR_CFG_PRES
  let good := (List.range 4).foldl (fun a l =>
    if bit was l || !(x.layers.any fun y => decide (y.1.val = r) && decide (y.2.val = l)) then a + 2 ^ l else a) 0
  let s := { s.setFld .TWR_CFG [r] F.TWR_CFG_PRES good with flash := { s.flash with pres := sput 15 s.flash.pres r good } }
  if back then (s.wipeRegion r).setAwake r else s

/-- STAGE_BIST (R390): 30 ms per six regions; what failed is entered for the next stage, memories are left wiped. -/
def execStageBist (x : BistResult) (s : State) : Host.Outcome State Fault Refusal :=
  .next (s.inStage 5 fun s =>
    let n := s.presentRegions.length + (s.cleared.filter fun r => !s.present r).length
    let s := s.toNs (s.ns + 30000000 * ((n + 5) / 6))
    let s := s.cleared.foldl (fun s r => s.clearTest x r) s
    let rs := x.plls.map fun r => r.val
    let ls := x.layers.map fun l => 4 * l.1.val + l.2.val
    let ts := x.tiles.map fun t => t.val
    { s with
      cleared := []
      regionMarks := rs ++ s.regionMarks.filter fun r => !rs.contains r
      layerMarks := ls ++ s.layerMarks.filter fun l => !ls.contains l
      repairMarks := ts ++ s.repairMarks.filter fun t => !ts.contains t })

/-- The value of a configuration register kept in flash (Table 17-2). -/
def State.flashCfg (s : State) (r : Reg) (i : List Nat) : Option W64 :=
  (s.flash.cfg.find? fun e => decide (e.1 = Reg.loc r i)).map Prod.snd
/-- A register restored from the flash configuration, if it is kept there. -/
def State.restore (s : State) (r : Reg) (i : List Nat) : State :=
  match s.flashCfg r i with
  | some v => s.setReg r i (writeFields r.info.flds (s.reg r i) v)
  | none => s

/-- STAGE_REPAIR (R73, R390, R391, R395, R404): what is marked takes effect; PRES from flash; a repaired row (region, row) whose re-test
fails retires its region; CAPS and TWR_CAP after that; the configuration that R404 names is restored, with ASYM of the ports. -/
def execStageRepair (retest : List (Nat × Nat)) (s : State) : Host.Outcome State Fault Refusal :=
  .next (s.inStage 6 fun s =>
    let s := (List.range 24).foldl (fun s r => s.setFld .TWR_CFG [r] F.TWR_CFG_PRES (sget 15 s.flash.pres r)) s
    let s := (List.range 24).foldl State.applyMarks s
    let s := retest.foldl (fun s x =>
      if decide (sget 0 s.flash.repair (6 * x.1 + x.2) ≠ 0) && s.present x.1 && decide (x.2 < 6) then s.retireRegion x.1 else s) s
    let s := s.presentRegions.foldl State.setCap s
    let s := ((s.restore .POLICY []).restore .THERM_CFG []).restore .PWR_CFG []
    let s := (List.range 8).foldl (fun s d => s.restore .DOM_REQ [d]) s
    (List.range 16).foldl (fun s p => s.restore .TB_ASYM [p]) s)

/-- STAGE_KEYS (R342, R365, R366): the operational keys are certified; the keeper's statements are numbered and signed; the certificate of
the reset's wipe is signed. -/
def execStageKeys (s : State) : Host.Outcome State Fault Refusal :=
  .next (s.inStage 7 fun s =>
    let s := { s with boot := { s.boot with certs := s.certChain } }
    let s := s.keeper.foldl (fun s k => let r := s.stmtSign k.1 k.2; r.2.retain (some k.1) 3 r.1) s
    let c := s.wipeCert 1 0xFF 0 s.resetAt s.wipedAt (s.fld .CAPS_REGIONS [] ⟨23, 0, .ro, 0⟩) 0 0 []
    { c.2 with keeper := [] }.retain none 4 c.1)

/-- STAGE_HOST (R389, R348): the host port is released with the bifurcation kept in flash; unowned regions sleep. -/
def execStageHost (s : State) : Host.Outcome State Fault Refusal :=
  .next (s.inStage 8 fun s =>
    let s := s.restore .HOST_CFG []
    let s := { s with bifNow := s.fld .HOST_CFG [] F.HOST_CFG_BIF }
    (s.presentRegions.filter fun r => (s.polderOf r).isNone && decide (s.regState r = 3)).foldl State.sleepRegion s)

/-- STAGE_READY (R387, R389, R424): a trial image is confirmed; the freeze triggers of the flash configuration are enabled. -/
def execStageReady (s : State) : Host.Outcome State Fault Refusal :=
  .next (s.inStage 9 fun s =>
    let s := if s.fld .FW_STAT [] F.FW_STAT_TRIAL = 1 then
        { s.setFld .FW_STAT [] F.FW_STAT_TRIAL 0 with flash := { s.flash with trial := false } }
      else s
    s.restore .FRZ_CFG [])

/-- The ports that the flash configuration enables, that are not listed as retired, and that are not enabled yet (R389, R394). -/
def State.portsToTrain (s : State) : List Nat :=
  (List.range 16).filter fun p => !s.retired.contains p && decide (s.fld .PORT_CFG [p] F.PORT_CFG_EN = 0) &&
    match s.flashCfg .PORT_CFG [p] with
    | some v => decide (F.PORT_CFG_EN.get v = 1)
    | none => false

/-- STAGE_LINKS (R389, R394): Terern stages the configuration of those ports and commits it; the commit applies EN, and they train (R9). -/
def execStageLinks (s : State) : Host.Outcome State Fault Refusal :=
  .next (if decide (s.stageNow = 10) && s.commit.isNone && !s.portsToTrain.isEmpty then
      (s.portsToTrain.foldl (fun s p => s.restore .PORT_CFG [p]) s).commitSoon
    else s)

end Sys2Proof.Machine
end

