-- ==== Sys2Proof/Machine/CoreAlu.lean ====
section
/-! DEFINITION. Arithmetic, logic, compare, branch and jump instructions (R99, R84, Tables 4-8 to 4-10). -/
namespace Sys2Proof.Machine

/-- A function of the two register operands into rd; `k` says whether FN[10:9] may be non-zero (SEL, AGL). -/
def alu (t th : Nat) (w : BitVec 26) (k : Bool) (f : Thread → W64 → W64 → W64) (s : State) : State :=
  s.issue t th fun s x =>
    s.legal t th (k || decide (bits w.toNat 10 9 = 0))
      (s.done t th (x.setS (fRD w) (f x (x.sreg (fRS1 w)) (x.sreg (fRS2 w)))))

/-- The comparator or loop level that FN[10:9] names. -/
def fnK (w : BitVec 26) : Nat := bits w.toNat 10 9

/-- A function of one register and the immediate into rd; `ok` is the entry's own restriction. -/
def imm (t th : Nat) (w : BitVec 26) (ok : Bool) (f : W64 → W64) (s : State) : State :=
  s.issue t th fun s x => s.legal t th ok (s.done t th (x.setS (fRD w) (f (x.sreg (fRS1 w)))))

/-- Shift amount IMM[5:0]. -/
def shamt (w : BitVec 26) : Nat := bits w.toNat 5 0
/-- IMM[15:6] is zero. -/
def shOk (w : BitVec 26) : Bool := decide (bits w.toNat 15 6 = 0)

/-- ADD (Table 4-8). -/
def execAluAdd (t : TileIx) (th : ThreadIx) (w : BitVec 26) (s : State) : Host.Outcome State Fault Refusal :=
  .next (alu t th w false (fun _ a b => a + b) s)

/-- SUB (Table 4-8). -/
def execAluSub (t : TileIx) (th : ThreadIx) (w : BitVec 26) (s : State) : Host.Outcome State Fault Refusal :=
  .next (alu t th w false (fun _ a b => a - b) s)

/-- AND (Table 4-8). -/
def execAluAnd (t : TileIx) (th : ThreadIx) (w : BitVec 26) (s : State) : Host.Outcome State Fault Refusal :=
  .next (alu t th w false (fun _ a b => a &&& b) s)

/-- OR (Table 4-8). -/
def execAluOr (t : TileIx) (th : ThreadIx) (w : BitVec 26) (s : State) : Host.Outcome State Fault Refusal :=
  .next (alu t th w false (fun _ a b => a ||| b) s)

/-- XOR (Table 4-8). -/
def execAluXor (t : TileIx) (th : ThreadIx) (w : BitVec 26) (s : State) : Host.Outcome State Fault Refusal :=
  .next (alu t th w false (fun _ a b => a ^^^ b) s)

/-- SLL (Table 4-8). -/
def execAluSll (t : TileIx) (th : ThreadIx) (w : BitVec 26) (s : State) : Host.Outcome State Fault Refusal :=
  .next (alu t th w false (fun _ a b => a <<< (b.toNat % 64)) s)

/-- SRL (Table 4-8). -/
def execAluSrl (t : TileIx) (th : ThreadIx) (w : BitVec 26) (s : State) : Host.Outcome State Fault Refusal :=
  .next (alu t th w false (fun _ a b => a >>> (b.toNat % 64)) s)

/-- SRA (Table 4-8). -/
def execAluSra (t : TileIx) (th : ThreadIx) (w : BitVec 26) (s : State) : Host.Outcome State Fault Refusal :=
  .next (alu t th w false (fun _ a b => a.sshiftRight (b.toNat % 64)) s)

/-- MUL (Table 4-8). -/
def execAluMul (t : TileIx) (th : ThreadIx) (w : BitVec 26) (s : State) : Host.Outcome State Fault Refusal :=
  .next (alu t th w false (fun _ a b => a * b) s)

/-- MULHU (Table 4-8). -/
def execAluMulhu (t : TileIx) (th : ThreadIx) (w : BitVec 26) (s : State) : Host.Outcome State Fault Refusal :=
  .next (alu t th w false (fun _ a b => BitVec.ofNat 64 (a.toNat * b.toNat / 2 ^ 64)) s)

/-- MIN (Table 4-8). -/
def execAluMin (t : TileIx) (th : ThreadIx) (w : BitVec 26) (s : State) : Host.Outcome State Fault Refusal :=
  .next (alu t th w false (fun _ a b => if a.slt b then a else b) s)

/-- MAX (Table 4-8). -/
def execAluMax (t : TileIx) (th : ThreadIx) (w : BitVec 26) (s : State) : Host.Outcome State Fault Refusal :=
  .next (alu t th w false (fun _ a b => if b.slt a then a else b) s)

/-- MINU (Table 4-8). -/
def execAluMinu (t : TileIx) (th : ThreadIx) (w : BitVec 26) (s : State) : Host.Outcome State Fault Refusal :=
  .next (alu t th w false (fun _ a b => if a.ult b then a else b) s)

/-- MAXU (Table 4-8). -/
def execAluMaxu (t : TileIx) (th : ThreadIx) (w : BitVec 26) (s : State) : Host.Outcome State Fault Refusal :=
  .next (alu t th w false (fun _ a b => if b.ult a then a else b) s)

/-- SEL (Table 4-8). -/
def execAluSel (t : TileIx) (th : ThreadIx) (w : BitVec 26) (s : State) : Host.Outcome State Fault Refusal :=
  .next (alu t th w true (fun x a b => if x.cmpBit (fnK w) then a else b) s)

/-- AGL (Table 4-8). -/
def execAluAgl (t : TileIx) (th : ThreadIx) (w : BitVec 26) (s : State) : Host.Outcome State Fault Refusal :=
  .next (alu t th w true (fun x a b => a + BitVec.ofNat 64 (x.idx (fnK w)) * b) s)

/-- ADDI (Table 4-9). -/
def execAddi (t : TileIx) (th : ThreadIx) (w : BitVec 26) (s : State) : Host.Outcome State Fault Refusal :=
  .next (imm t th w true (fun a => a + immS w) s)

/-- ANDI (Table 4-9). -/
def execAndi (t : TileIx) (th : ThreadIx) (w : BitVec 26) (s : State) : Host.Outcome State Fault Refusal :=
  .next (imm t th w true (fun a => a &&& immZ w) s)

/-- ORI (Table 4-9). -/
def execOri (t : TileIx) (th : ThreadIx) (w : BitVec 26) (s : State) : Host.Outcome State Fault Refusal :=
  .next (imm t th w true (fun a => a ||| immZ w) s)

/-- XORI (Table 4-9). -/
def execXori (t : TileIx) (th : ThreadIx) (w : BitVec 26) (s : State) : Host.Outcome State Fault Refusal :=
  .next (imm t th w true (fun a => a ^^^ immZ w) s)

/-- SLLI (Table 4-9). -/
def execSlli (t : TileIx) (th : ThreadIx) (w : BitVec 26) (s : State) : Host.Outcome State Fault Refusal :=
  .next (imm t th w (shOk w) (fun a => a <<< shamt w) s)

/-- SRLI (Table 4-9). -/
def execSrli (t : TileIx) (th : ThreadIx) (w : BitVec 26) (s : State) : Host.Outcome State Fault Refusal :=
  .next (imm t th w (shOk w) (fun a => a >>> shamt w) s)

/-- SRAI (Table 4-9). -/
def execSrai (t : TileIx) (th : ThreadIx) (w : BitVec 26) (s : State) : Host.Outcome State Fault Refusal :=
  .next (imm t th w (shOk w) (fun a => a.sshiftRight (shamt w)) s)

/-- A register with bits [16k+15:16k] replaced. -/
def insert16 (r : W64) (k : Nat) (v : BitVec 16) : W64 :=
  (r &&& ~~~((0xFFFF : W64) <<< (16 * k))) ||| (v.zeroExtend 64 <<< (16 * k))

/-- INSI (Table 4-9): IMM into quarter RS1[1:0] of rd; RS1[4:2] must be 0. -/
def execInsi (t : TileIx) (th : ThreadIx) (w : BitVec 26) (s : State) : Host.Outcome State Fault Refusal :=
  .next (s.issue t th fun s x => s.legal t th (decide (fRS1 w < 4))
    (s.done t th (x.setS (fRD w) (insert16 (x.sreg (fRD w)) (fRS1 w) (fIMM w)))))

/-- A comparison into cmp[K]; codes 6 and 7 are undefined (Table 4-10). -/
def compare (t th : Nat) (w : BitVec 26) (ok : Bool) (b : Thread → W64) (s : State) : State :=
  s.issue t th fun s x =>
    match condOf (bits w.toNat 25 23) (x.sreg (fRS1 w)) (b x) with
    | some c => s.legal t th ok (s.done t th (x.setCmp (bits w.toNat 22 21) c))
    | none => s.coreFault t th 1

/-- CMP: cmp[K] from two registers; bits [10:0] are 0 in format C. -/
def execCmp (t : TileIx) (th : ThreadIx) (w : BitVec 26) (s : State) : Host.Outcome State Fault Refusal :=
  .next (compare t th w (decide (fFN w = 0)) (fun x => x.sreg (fRS2 w)) s)

/-- CMPI: cmp[K] from a register and the sign-extended immediate. -/
def execCmpi (t : TileIx) (th : ThreadIx) (w : BitVec 26) (s : State) : Host.Outcome State Fault Refusal :=
  .next (compare t th w true (fun _ => immS w) s)

/-- BR: to PC + OFF where cmp[K] = P, else the next word (R84, R99). -/
def execBr (t : TileIx) (th : ThreadIx) (w : BitVec 26) (s : State) : Host.Outcome State Fault Refusal :=
  .next (s.issue t th fun s x =>
    s.legal t th (decide (bits w.toNat 25 23 = 0) && decide (bits w.toNat 19 16 = 0))
      (if x.cmpBit (bits w.toNat 22 21) = bit w.toNat 20 then s.jump t th x (x.pc + (fIMM w).truncate 15) else s.done t th x))

/-- JAL: rd := PC + 1 and a jump to PC + IMM; RS1 must be 0. -/
def execJal (t : TileIx) (th : ThreadIx) (w : BitVec 26) (s : State) : Host.Outcome State Fault Refusal :=
  .next (s.issue t th fun s x => s.legal t th (decide (fRS1 w = 0))
    (s.jump t th (x.setS (fRD w) (BitVec.ofNat 64 (x.pc.toNat + 1))) (x.pc + (fIMM w).truncate 15)))

/-- JR: a jump to s[rs1] + IMM with the link in rd; rs1 is read before rd is written. -/
def execJr (t : TileIx) (th : ThreadIx) (w : BitVec 26) (s : State) : Host.Outcome State Fault Refusal :=
  .next (s.issue t th fun s x =>
    s.jump t th (x.setS (fRD w) (BitVec.ofNat 64 (x.pc.toNat + 1))) ((x.sreg (fRS1 w) + immS w).truncate 15))

end Sys2Proof.Machine
end

