-- ==== Sys2Proof/Machine/Slow.lean ====
section
/-! DEFINITION. The slow tier and baton fetches: requests of the host hub and the UIO transfers that carry them (R281, R290, R354, R355). -/
namespace Sys2Proof.Machine

/-! ### Parts of a transfer -/

/-- The offset of a request in lines from SLOW_BASE. -/
def HubReq.offset (q : HubReq) : Nat := q.offh * 2 ^ 33 + q.offl
/-- Address of line offset `o` of a polder's window. -/
def State.slowAddr (s : State) (d o : Nat) : Nat := s.app .SLOW_BASE [d] F.SLOW_BASE_BASE * 4096 + 64 * o
/-- Whether `n` lines at offset `o` lie in a polder's window, and the window is open (R290, R354). -/
def State.slowIn (s : State) (d o n : Nat) : Bool :=
  decide (s.fld .UIO_TGT [d] F.UIO_TGT_EN = 1) && decide (o + n ≤ s.app .SLOW_LIM [d] F.SLOW_LIM_LINES)
/-- The IDE stream that a polder's requests travel on, if they use one. -/
def State.slowStream (s : State) (d : Nat) : Option Nat :=
  if s.fld .UIO_TGT [d] F.UIO_TGT_IDE = 1 then some (s.fld .UIO_TGT [d] F.UIO_TGT_STREAM) else none
/-- Whether a polder's requests can travel: without IDE, or on an established stream. -/
def State.slowWay (s : State) (d : Nat) : Bool :=
  match s.slowStream d with
  | some k => s.ideUp.contains k
  | none => true

/-- A UIO request for `len` bytes at `off` of a job joins the queue. -/
def State.addPart (s : State) (j : SlowJob) (wr : Bool) (addr len off : Nat) (data : Bytes) : State :=
  let p : UioPart := ⟨s.uioNo, j.id, wr, s.fld .UIO_TGT [j.polder] F.UIO_TGT_DPID, s.slowStream j.polder, addr, len, off, data, none⟩
  { s with uio := s.uio ++ [p], uioNo := s.uioNo + 1 }

/-- `len` bytes at byte `off` of a job whose first byte lies at `base`, split at every 256 B boundary of the address (R354); how many
parts. -/
def State.addParts (j : SlowJob) (wr : Bool) (base : Nat) (data : Bytes) : Nat → Nat → Nat → Nat → State → Nat × State
  | 0, _, _, n, s => (n, s)
  | fuel + 1, off, len, n, s =>
    if len = 0 then (n, s)
    else
      let a := base + off
      let k := min len (256 - a % 256)
      State.addParts j wr base data fuel (off + k) (len - k) (n + 1) (s.addPart j wr a k off (if wr then slice data off k else []))

/-- A slow-tier job of `kind` begins with `len` bytes to transfer. -/
def State.slowBegin (s : State) (q : HubReq) (d kind len : Nat) (data : Bytes) : State :=
  let j : SlowJob := ⟨s.uioNo, q, d, kind, 0, false, len, 0, [], 0, none⟩
  let s := { s with uioNo := s.uioNo + 1 }
  let r := State.addParts j (decide (kind = 1)) (s.slowAddr d q.offset) data 8 0 len 0 s
  { r.2 with slow := r.2.slow ++ [{ j with left := r.1 }] }

/-! ### Requests -/

/-- A slow-tier request that moves `lines` lines: refused outside its window, completed with E = 1 without its stream (R290, R354). -/
def State.slowStart (s : State) (q : HubReq) (lines : Nat) (ok : Bool) (k : Nat → State → State) : State :=
  let d := q.polder.getD 8
  if !ok || !s.slowIn d q.offset lines then s.hostRefuse q
  else if !s.slowWay d then s.hostTell q false
  else k d s

/-- Whether the tile and lines of an SREAD or SWRITE lie in the requesting polder's pads. -/
def State.slowTile (s : State) (q : HubReq) : Bool :=
  decide (q.htile < 1152) && decide (s.tilePolder q.htile = q.polder) && decide (q.hline + q.nl < 65536)

/-- Whether the hub's queue of 1,024 waiting UIO requests lacks room for those of the slow-tier request or fetch at the front, which then waits
(R355). -/
def State.uioFull (s : State) : Bool :=
  match (s.hub 16).reqs.find? fun q => decide (q.hop ≠ 12) with
  | none => false
  | some q =>
    let n := if decide (q.hop = 1) || decide (q.hop = 2) then (q.nl + 1) / 4 + 2 else if q.hop = 11 then 3 else 0
    decide (0 < n) && decide (1024 < (s.uio.filter fun p => p.at_.isNone).length + n)

/-- A slow-tier request or fetch at the front of the host hub's queue, once the UIO queue has room for it. -/
def State.takeSlow (s : State) (hop : Nat) (k : HubReq → State → State) : State := if s.uioFull then s else s.takeHost hop k

/-- SREAD (R290). -/
def execSread (s : State) : Host.Outcome State Fault Refusal :=
  .next (s.takeSlow 1 fun q s => s.slowStart q (q.nl + 1) (s.slowTile q) fun d s => s.slowBegin q d 0 (64 * (q.nl + 1)) [])

/-- SWRITE (R290): the lines are read by the hub; a failed line check sends nothing and aborts the tile's segment (Table 2-3). -/
def execSwrite (s : State) : Host.Outcome State Fault Refusal :=
  .next (s.takeSlow 2 fun q s => s.slowStart q (q.nl + 1) (s.slowTile q) fun d s =>
    match (s.routeFree q.htile 1168).freeLoad q.htile (64 * q.hline) (64 * (q.nl + 1)) 6 16 with
    | .ok b s => s.slowBegin q d 1 (64 * (q.nl + 1)) b
    | .crc s => s.abortSeg q.htile
    | .live s => s)

/-- BFETCH (R281): the header of 512 B is read first. -/
def execBfetch (s : State) : Host.Outcome State Fault Refusal :=
  .next (s.takeSlow 11 fun q s =>
    s.slowStart q 8 (decide (q.htile < 64) && decide (q.hline = 0) && decide (q.nl = 0)) fun d s => s.slowBegin q d 2 512 [])

/-! ### Completion -/

/-- A job replaced. -/
def State.setSlow (s : State) (j : SlowJob) : State := { s with slow := s.slow.map fun k => if k.id = j.id then j else k }
/-- A job ended and its request completed (R290); its requests still outstanding are discarded as they complete. -/
def State.slowEnd (s : State) (j : SlowJob) (ok : Bool) : State :=
  let s := { s with slow := s.slow.filter fun k => decide (k.id ≠ j.id), uio := s.uio.filter fun p => p.at_.isSome || decide (p.job ≠ j.id) }
  s.hostTell j.req ok

/-- Contiguous bytes of a fetch from `pos` on, with what lies beyond them. -/
def takeRun : Nat → Nat → List (Nat × Bytes) → Bytes × List (Nat × Bytes)
  | 0, _, l => ([], l)
  | n + 1, pos, l =>
    match l.find? fun e => e.1 = pos with
    | none => ([], l)
    | some e => let r := takeRun n (pos + e.2.length) (l.erase e); (e.2 ++ r.1, r.2)

/-- The header of a fetch is there: its extent is checked against the window, then it is handled as an arriving header (R281), once the info
ring has room (R280). -/
def State.fetchHeader (s : State) (j : SlowJob) (hdr : Bytes) : State :=
  let e := j.req.htile
  let len := hdrLen hdr
  let total := 64 * len + 16 * ((len + 4095) / 4096)
  match s.entry 16 3 e with
  | none => s.slowEnd j false
  | some x =>
    if x.polder ≠ j.polder then s.slowEnd j false
    else if !s.infoRoom 16 x then s
    else if !s.slowIn j.polder j.req.offset ((512 + total + 63) / 64) then (s.slowCount j.req F.SLOW_CNT_BADREQ_CNT).slowEnd j false
    else
      let r := s.hdrTake 16 e x none hdr
      if r.1 then r.2.setSlow { j with taken := 512, total := 512 + total, ctx := some e, next := 512, buf := [] } else r.2.slowEnd j false

/-- The body of a fetch: ciphertext and tags taken up in order as staging has room, the last 16 B as the tag of the end (R276, R281). -/
def State.fetchBody (s : State) (j : SlowJob) : State :=
  match s.entry 16 3 j.req.htile, s.recvOf 16 j.req.htile with
  | some x, some (c, r) =>
    let run := takeRun j.buf.length j.taken j.buf
    let body := run.1.take (j.total - 16 - j.taken)
    let f := r.feed body 0 (body.length + 2)
    match f.2.2 with
    | some cause => if s.infoRoom 16 x then (s.ctxReject 16 c f.1 cause).slowEnd j false else s
    | none =>
      let s := s.setRecv 16 c (some { f.1 with last := if f.2.1 = 0 then r.last else s.wt })
      let pos := j.taken + f.2.1
      let rest := run.1.drop f.2.1
      let j := { j with taken := pos, buf := if rest.isEmpty then run.2 else (pos, rest) :: run.2 }
      if decide (pos + 16 = j.total) && decide (rest.length = 16) && s.infoRoom 16 x then
        let e := s.batonEnd 16 c x f.1 rest
        e.2.slowEnd j e.1
      else s.setSlow j
  | some _, none => s.slowEnd j false
  | none, _ => s.slowEnd j false

/-- Further requests of a fetch, at most 64 of it at a time. -/
def State.fetchMore (j : SlowJob) : Nat → State → State
  | 0, s => s
  | n + 1, s =>
    match s.slow.find? fun k => decide (k.id = j.id) with
    | none => s
    | some j =>
      if decide (j.next < j.total) && decide ((s.uio.filter fun p => decide (p.job = j.id)).length < 64) &&
          decide ((s.uio.filter fun p => p.at_.isNone).length < 1024) then
        let base := s.slowAddr j.polder j.req.offset
        let k := min (j.total - j.next) (256 - (base + j.next) % 256)
        State.fetchMore j n ((s.addPart j false (base + j.next) k j.next []).setSlow { j with next := j.next + k, left := j.left + 1 })
      else s

/-- A fetch looked at again: its header, or what of its body staging takes and what is still to be requested. -/
def State.fetchGo (s : State) (j : SlowJob) : State :=
  if j.ctx.isNone then
    let run := takeRun j.buf.length 0 j.buf
    if run.1.length = 512 then State.fetchMore j 64 (s.fetchHeader j run.1) else s
  else State.fetchMore j 64 (s.fetchBody j)

/-- Lines of an SREAD landed as service-plane arrivals, unit 0x7, past the dike of the tile (R290, R336). -/
def State.slowLand (s : State) (j : SlowJob) (off : Nat) (data : Bytes) : State :=
  let s := s.routeFree 1168 j.req.htile
  if s.dikeTile 1168 j.req.tenant j.req.htile then
    (List.range (data.length / 64)).foldl (fun s i =>
      let l := j.req.hline + off / 64 + i
      match (State.freeSlot j.req.htile l 7 tries s).padPut j.req.htile (64 * l) (slice data (64 * i) 64) 7 0 with
      | .ok _ s => s
      | .crc s => s
      | .live s => s) s
  else s.svcDrop

/-- UIO requests outstanding (UIO_STAT.OUT). -/
def State.uioOut (s : State) : State := s.setFld .UIO_STAT [] F.UIO_STAT_OUT (s.uio.filter fun p => p.at_.isSome).length

/-- A part done, with its data or an error; the request completes with its last part (R290, R354). -/
def State.partDone (s : State) (p : UioPart) (ok : Bool) (data : Bytes) : State :=
  let s := { s with uio := s.uio.erase p }.uioOut
  match s.slow.find? fun j => decide (j.id = p.job) with
  | none => s
  | some j =>
    let j := { j with left := j.left - 1, err := j.err || !ok }
    let s := if ok then s.meterAdd j.polder 3 p.len else s.slowCount j.req F.SLOW_CNT_UIOERR_CNT
    if j.kind = 2 then
      if ok then (let j := { j with buf := j.buf ++ [(p.off, padTo data p.len)] }; (s.setSlow j).fetchGo j) else s.slowEnd j false
    else
      let s := if ok && decide (j.kind = 0) then s.slowLand j p.off (padTo data p.len) else s
      if j.left = 0 then s.slowEnd j (!j.err) else s.setSlow j

/-- UIO_ISSUE (R355): fetches are looked at again; the oldest waiting request is issued while fewer than 512 are outstanding. -/
def execUioIssue (s : State) : Host.Outcome State Fault Refusal :=
  .next (if s.isFrozen then s
    else
      let s := (s.slow.filter fun j => decide (j.kind = 2)).foldl (fun s j => s.fetchGo j) s
      match s.uio.find? fun p => p.at_.isNone with
      | none => s
      | some p =>
        if (s.uio.filter fun p => p.at_.isSome).length < 512 then
          let l := s.uio.map fun x : UioPart => if x.id = p.id then { x with at_ := some s.wt } else x
          let o : Out := .uio p.id p.wr p.dpid p.stream p.addr p.len p.data
          { s with uio := l, out := s.out ++ [o] }.uioOut
        else s)

/-- A completion of an outstanding request taken up; a late one is discarded (R355). -/
def State.uioDone (s : State) (id : Nat) (ok : Bool) (data : Bytes) : State :=
  match s.uio.find? fun p => decide (p.id = id) && p.at_.isSome with
  | some p => s.partDone p ok data
  | none => s

/-- UIO_COMPLETION (R290, R354, R419): held while the device is frozen. -/
def execUioCompletion (id : Nat) (ok : Bool) (data : Bytes) (s : State) : Host.Outcome State Fault Refusal :=
  .next (if s.isFrozen then { s with uioHeld := s.uioHeld ++ [(id, ok, data)] } else s.uioDone id ok data)

/-- UIO_TIMEOUT (R355): 100 µs without a completion. -/
def execUioTimeout (id : Nat) (s : State) : Host.Outcome State Fault Refusal :=
  .next (if s.isFrozen then s
    else match s.uio.find? fun p => decide (p.id = id) && p.at_.isSome with
      | none => s
      | some p =>
        let s := (s.toWt (p.at_.getD 0 + nsWt 100000)).incSat .UIO_STAT [] F.UIO_STAT_TMO_CNT 1
        s.partDone p false [])

end Sys2Proof.Machine
end

