-- ==== Sys2Proof/Machine/Freeze.lean ====
section
/-! DEFINITION. Freeze and thaw (R252, R417 to R424). -/
namespace Sys2Proof.Machine

/-- FRZ_N_FALL (R417): with PIN enabled a falling edge launches. -/
def execFrzNFall (s : State) : Host.Outcome State Fault Refusal :=
  .next (if s.fld .FRZ_CFG [] F.FRZ_CFG_PIN = 1 then s.launch 1 none else s)

/-- FREEZE_WT_TRIGGER (R417): wt reaches FRZ_TWT with WT enabled. -/
def execFreezeWtTrigger (s : State) : Host.Outcome State Fault Refusal :=
  .next (if s.fld .FRZ_CFG [] F.FRZ_CFG_WT = 1 then (s.toNs (s.reg .FRZ_TWT []).toNat).launch 4 none else s)

/-- FREEZE (R417, R418): by FRZ_CTL from the management core or JTAG, or by I3C; the management core orders none while it stands. -/
def execFreeze (src : FrzSrc) (s : State) : Host.Outcome State Fault Refusal :=
  .next (if decide (src = .ctl) && decide (s.frzState = 3) then s else s.launch 6 none)

/-- Whether every formed domain has reached its F_d. -/
def State.allStopped (s : State) : Bool :=
  (List.range 8).all fun d => !(s.dom d).formed || match (s.dom d).stop with
    | some f => decide (f ≤ (s.dom d).fc)
    | none => false

/-- The device is frozen: its ports are held; in a full freeze the management core stops 1 µs later and its key area is zeroed
(R252, R419, R422). -/
def State.frozen (s : State) : State :=
  let s : State := { s.setFld .FRZ_STAT [] F.FRZ_STAT_STATE 2 with frozenAt := s.wt }
  let s := (List.range 16).foldl (fun (s : State) p => s.holdPort p) s
  if s.fld .FRZ_CFG [] F.FRZ_CFG_FULL = 1 then
    let s := s.toNs (s.ns + 1000)
    { s.setFld .FRZ_STAT [] F.FRZ_STAT_STATE 3 with boot := { s.boot with cdi := [], devKey := [] } }
  else s

/-- FREEZE_STOP (R418): a region completes fc F_d - 1 and begins no further one; when the last domain stands the device is frozen. -/
def execFreezeStop (r : RegionIx) (s : State) : Host.Outcome State Fault Refusal :=
  .next (if s.frzState ≠ 1 then s
    else
      let s := match s.polderOf r with
        | some d => match (s.dom d).stop with
          | some f => s.toFc d f
          | none => s
        | none => s
      if s.allStopped then s.frozen else s)

/-- The wall-time bounds suspended during a freeze go on with the time they had left (R419, R423): GWDOG, GUN_LIM, baton receive contexts
(those of a HELD port with their port, R252), UIO. -/
def State.resumeBounds (s : State) (dt : Nat) : State :=
  let tiles := s.tiles.map fun e => (e.1, { e.2 with thr := e.2.thr.map fun x => match x.2.st with
    | .wait rd g k since met a => (x.1, { x.2 with st := .wait rd g k (since + dt) met a })
    | _ => x })
  let chans := s.chans.map fun e => (e.1, { e.2 with since := e.2.since + dt })
  let hubs := s.hubs.map fun e =>
    if decide (e.1 < 16) && (s.lport e.1).held.isSome then e
    else (e.1, { e.2 with recv := e.2.recv.map fun x => (x.1, x.2.map fun c => { c with last := c.last + dt }) })
  let uio := s.uio.map fun p => { p with at_ := p.at_.map (· + dt) }
  { s with tiles := tiles, chans := chans, hubs := hubs, uio := uio }

/-- The resume: every domain goes on at F_d, held completions are taken up (R419, R423). -/
def State.resume (s : State) : State :=
  let s := s.resumeBounds (s.wt - s.frozenAt)
  let s := (List.range 8).foldl (fun s d => s.setDom d { s.dom d with stop := none }) s
  let held := s.uioHeld
  let s := { s.setFld .FRZ_STAT [] F.FRZ_STAT_STATE 0 with uioHeld := [] }
  held.foldl (fun s c => s.uioDone c.1 c.2.1 c.2.2) s

/-- A thaw ordered with FRZ_N at a level: refused with THREJ unless the device is frozen, not fully, and FRZ_N is high or not enabled
(R423). -/
def State.thaw (s : State) (pinLow : Bool) : State :=
  if decide (s.frzState = 2) && !(pinLow && decide (s.fld .FRZ_CFG [] F.FRZ_CFG_PIN = 1)) then s.resume
  else s.setFld .FRZ_STAT [] F.FRZ_STAT_THREJ 1

/-- THAW (R423): by FRZ_CTL or I3C. -/
def execThaw (src : FrzSrc) (pinLow : Bool) (s : State) : Host.Outcome State Fault Refusal :=
  .next (if decide (src = .ctl) && decide (s.frzState = 3) then s else s.thaw pinLow)

/-- THAW_WT (R423): wt reaches FRZ_RWT while RWTEN is set. -/
def execThawWt (pinLow : Bool) (s : State) : Host.Outcome State Fault Refusal :=
  .next (if s.fld .FRZ_CTL [] F.FRZ_CTL_RWTEN = 1 then (s.toNs (s.reg .FRZ_RWT []).toNat).thaw pinLow else s)

/-- Whether the device drives FRZ_N low: DRV is set, from a launch until the thaw (R417). -/
def State.frzDriven (s : State) : Bool := decide (s.fld .FRZ_CFG [] F.FRZ_CFG_DRV = 1) && decide (s.frzState ≠ 0)

/-- FRZ_CTL (R417, R423): THAW before FREEZE; JTAG and the management core write it. A register write carries no level of FRZ_N: where PIN is
enabled and the device does not drive the pin itself, the level is a free value (log 48). -/
def State.wrFrzCtl (v : W64) (s : State) : State :=
  let s := s.setFld .FRZ_CTL [] F.FRZ_CTL_RWTEN (F.FRZ_CTL_RWTEN.get v)
  let s := if F.FRZ_CTL_THAW.get v = 1 then s.useFree.thaw (s.frzDriven || decide ((Config.freeValue s.free).toNat % 2 = 1)) else s
  if F.FRZ_CTL_FREEZE.get v = 1 then s.launch 6 none else s

end Sys2Proof.Machine
end

