-- ==== Sys2Proof/Machine/Retier.lean ====
section
/-! DEFINITION. Management messages of the programs and the re-tiering of embedding rows (R294, R298, R329, R384, R397, R401). -/
namespace Sys2Proof.Machine

/-! ### Orders (R294, Table 11-10) -/

/-- The re-tiering of a polder. -/
def State.retier (s : State) (d : Nat) : Retier := sget Retier.init s.retiers d
/-- The re-tiering of a polder changed. -/
def State.modRetier (s : State) (d : Nat) (f : Retier → Retier) : State :=
  { s with retiers := sput Retier.init s.retiers d (f (s.retier d)) }

/-- An order entry (Table 11-10). -/
def orderEntry (order op table region half row block : Nat) : Bytes :=
  padTo (natLe 4 order ++ natLe 1 op ++ natLe 1 table ++ natLe 1 region ++ natLe 1 half ++ natLe 8 row ++ natLe 4 block) 64

/-- The order ring of a polder (ORD_CFG): tile and ring. -/
def State.orderRing (s : State) (d : Nat) : Option (Nat × Nat) :=
  if s.fld .ORD_CFG [d] F.ORD_CFG_EN = 1 then some (s.fld .ORD_CFG [d] F.ORD_CFG_TILE, s.fld .ORD_CFG [d] F.ORD_CFG_RING) else none

/-- An entry appended to the order ring by a ring append (R35). -/
def State.putOrder (s : State) (t n : Nat) (e : Bytes) : State := s.append t (padTo [BitVec.ofNat 8 n] 32 ++ e)

/-- Orders that waited for room appended while there is room. -/
def State.flushOrders (d : Nat) : Nat → State → State
  | 0, s => s
  | k + 1, s =>
    match s.orderRing d, (s.retier d).wait with
    | some (t, n), e :: es =>
      if (s.tile t).ringFull n then s else State.flushOrders d k ((s.modRetier d fun r => { r with wait := es }).putOrder t n e)
    | _, _ => s

/-- An order with the polder's next number, behind those that wait for room. -/
def State.order (s : State) (d op table region half row block : Nat) : State :=
  let e := orderEntry (s.retier d).order op table region half row block
  State.flushOrders d 64 (s.modRetier d fun r => { r with order := (r.order + 1) % 2 ^ 32, wait := r.wait ++ [e] })

/-! ### The pass (R294, R401) -/

/-- Whether candidate `a` (row, estimate) is promoted before `b`: the higher estimate, then the lower row. -/
def before (a b : Nat × Nat) : Bool := decide (b.2 < a.2) || (decide (a.2 = b.2) && decide (a.1 < b.1))

/-- The candidate of a sketch to promote next, with its entry: at least PROMO. -/
def Sketch.best (x : Sketch) (promo : Nat) : Option (Nat × Nat × Nat) :=
  x.cand.foldl (fun b e => match e.2 with
    | some c =>
      if c.2 < promo then b
      else match b with
        | some (k, r) => if before c r then some (e.1, c) else some (k, r)
        | none => some (e.1, c)
    | none => b) none

/-- The pass from sketch `k` on with `i` orders issued for it, `u` being the number of its update point: PROMOTE orders, then HALVE at every
2^DECAY-th update point; with a full order ring Terern waits. -/
def State.passGo (d u : Nat) : Nat → Nat → Nat → State → State
  | 0, k, i, s => s.modRetier d fun r => { r with pass := some (k, i) }
  | f + 1, k, i, s =>
    let w := s.reg .HEAT_TBL [k]
    if 64 ≤ k then s.modRetier d fun r => { r with pass := none }
    else if decide (F.HEAT_TBL_EN.get w = 1) && decide (F.HEAT_TBL_RETIER.get w = 1) && decide (F.HEAT_TBL_POLDER.get w = d) then
      let next := fun s : State =>
        State.passGo d u f (k + 1) 0 (if u % 2 ^ F.HEAT_TBL_DECAY.get w = 0 then s.setSketch k (s.sketch k).halve else s)
      match s.orderRing d, (s.sketch k).best (F.HEAT_TBL_PROMO.get w) with
      | some (t, n), some (e, row, _) =>
        if F.HEAT_TBL_MOVEMAX.get w ≤ i then next s
        else if (s.tile t).ringFull n || !(s.retier d).wait.isEmpty then s.modRetier d fun r => { r with pass := some (k, i) }
        else State.passGo d u f k (i + 1) ((s.setSketch k ((s.sketch k).takeCand e)).order d 1 (F.HEAT_TBL_TABLE.get w) 0 0 row 0)
      | _, _ => next s
    else State.passGo d u f (k + 1) 0 s

/-- RETIER_PASS (R294, R401): the pass in progress goes on, or that of the next update point starts. -/
def execRetierPass (d : PolderIx) (s : State) : Host.Outcome State Fault Refusal :=
  .next (let s := State.flushOrders d 4096 s
    let r := s.retier d
    match r.pass with
    | some (k, i) => State.passGo d (r.count - r.todo) 4300 k i s
    | none =>
      if r.todo = 0 then s
      else State.passGo d (r.count - (r.todo - 1)) 4300 0 0 (s.modRetier d fun r => { r with todo := r.todo - 1 }))

/-! ### Messages (R384, Table 17-1) -/

/-- The message at the head of the management core's queue taken as message `msg`; one with an undefined MSG or unused bits set is discarded
and counted. Another message is left to its own row; a stopped core takes none (R422). -/
def State.mgmtTake (s : State) (msg : Nat) (ok : HubReq → Bool) (k : HubReq → State → State) : State :=
  match s.mgmt with
  | [] => s
  | q :: qs =>
    let m := bits q.w0.toNat 27 20
    if s.frzState = 3 then s
    else if decide (m ≠ msg) && (decide (m = 1) || decide (m = 2) || decide (m = 3)) then s
    else
      let s := { s with mgmt := qs }.incWrap .MGMT_STAT [] F.MGMT_STAT_MSG_CNT 1
      if decide (m = msg) && ok q then k q s else s.incSat .MGMT_STAT [] F.MGMT_STAT_BADMSG_CNT 1

/-- UPDATE_POINT (R294, R329). -/
def execUpdatePoint (s : State) : Host.Outcome State Fault Refusal :=
  .next (s.mgmtTake 1 (fun q => decide (bits q.w0.toNat 19 0 = 0) && decide (q.w1 = 0)) fun q s =>
    match q.polder with
    | none => s
    | some d =>
      (s.setReg .RCPT_UPD [d] (s.reg .RCPT_UPD [d] + 1)).modRetier d fun r => { r with count := r.count + 1, todo := r.todo + 1 })

/-- A RELOAD order reported (R298): 0 or 2 lets each channel that waits for it re-run once its last order is done, 2 with ROW_REVERTED; 3 with
LINE_LOST, or 1, leaves them ABORTED. The table and row of ROW_REVERTED are nowhere in the message: free values. -/
def State.reloadDone (s : State) (x : Reload) (status : Nat) : State :=
  let rest := s.reloads.erase x
  let bad := decide (status = 1) || decide (status = 3)
  let s := { s with reloads := if bad then rest.map fun y => { y with chs := y.chs.filter fun c => !x.chs.contains c } else rest }
  let s := match status with
    | 2 => s.useFree.event 5 (some x.polder) (natLe 9 (Config.freeValue s.free).toNat)
    | 3 => s.event 6 (some x.polder) (natLe 1 x.region ++ natLe 1 x.half ++ natLe 4 x.block)
    | _ => s
  if bad then s
  else (x.chs.filter fun c => !rest.any fun y => y.chs.contains c).foldl (fun s c => s.terernGo c) s

/-- ORDER_DONE (R294, R298). -/
def execOrderDone (s : State) : Host.Outcome State Fault Refusal :=
  .next (s.mgmtTake 2 (fun q => decide (bits q.w0.toNat 19 2 = 0) && decide (bits q.w1.toNat 63 32 = 0)) fun q s =>
    match q.polder with
    | none => s
    | some d =>
      match s.reloads.find? fun x => decide (x.polder = d) && decide (x.order = bits q.w1.toNat 31 0) with
      | some x => s.reloadDone x (bits q.w0.toNat 1 0)
      | none => s.modRetier d fun r => { r with reported := r.reported + 1 })

end Sys2Proof.Machine
end

