-- ==== Sys2Proof/Machine/Session.lean ====
section
/-! DEFINITION. The session commands: Terern takes the entry at the head of a mailbox's command ring (R357, R359 to R361, R433,
Tables 15-5 and 15-6). -/
namespace Sys2Proof.Machine

/-! ### Taking a command -/

/-- The codes of Table 15-5. -/
def sesCodes : List Nat := [1, 2, 3, 0x10, 0x11, 0x12, 0x13, 0x14, 0x15, 0x16, 0x17]

/-- A response in the event ring of the mailbox (R357). -/
def State.respond (s : State) (m : Nat) (tag : Bytes) (status : Nat) (body : Bytes) : State := s.post m (eventEntry 1 tag status body)

/-- REFUSED with the register and bit of the flag that was set (Table 15-6). -/
def State.refused (s : State) (m : Nat) (tag : Bytes) (r : Reg) (i : List Nat) (f : Fld) : State :=
  s.respond m tag 5 (natLe 8 (r.loc i) ++ [BitVec.ofNat 8 f.lo] ++ List.replicate 7 0)

/-- REFUSED where no flag was set. -/
def State.refusedPlain (s : State) (m : Nat) (tag : Bytes) : State := s.respond m tag 5 (List.replicate 16 0)

/-- A mailbox returned to FREE after its response (R359): unbound, commands that wait are dropped, the event ring stays. -/
def State.freeMbox (s : State) (m : Nat) : State :=
  let s := (s.setReg .SESS [m] 0).setFld .MB_STAT [m] F.MB_STAT_STATE 0
  let s := (s.setFld .MB_STAT [m] F.MB_STAT_CHEAD (s.fld .MB_STAT [m] F.MB_STAT_CTAIL)).setFld .MB_STAT [m] F.MB_STAT_CHW
    (s.fld .MB_STAT [m] F.MB_STAT_CTW)
  (s.setFld .MB_STAT [m] F.MB_STAT_FILL 0).modMbox m fun b => { Mbox.init with wait := b.wait }

/-- STATE of a session (SESS and MB_STAT). -/
def State.setSession (s : State) (m v : Nat) : State :=
  (s.setFld .SESS [m] F.SESS_STATE v).setFld .MB_STAT [m] F.MB_STAT_STATE v

/-- Whether Terern may take a command from a mailbox: sessions are served, no earlier COMMIT waits for its result, the event ring has
room (R360). -/
def State.sesReady (s : State) (m : Nat) : Bool :=
  s.serving && decide (0 < s.cmdOcc m) && (s.mbox m).wait.isEmpty && decide (s.evOcc m < 64) &&
    match s.commit with
    | some ⟨_, some (k, _)⟩ => decide (k ≠ m)
    | _ => true

/-- The well-formedness of an entry (R357): VER, LEN within 240 and at least `need`, zero where nothing is laid down: the `rsvd` spans and
what follows byte `ext` of the body. -/
def sesShape (e : Bytes) (need ext : Nat) (rsvd : List (Nat × Nat)) : Bool :=
  let n := leNat (slice e 2 2)
  decide (byteAt e 1 = 1) && decide (n ≤ 240) && decide (need ≤ n) && allZero (slice e 8 8) &&
    allZero (slice e (16 + ext) (n - ext)) && rsvd.all fun r => allZero (slice e (16 + r.1) r.2)

/-- The entry at the head taken as command `code`: `k` acts on its body, TAG and LEN. An entry of another row is left to it; one with an
undefined CMD or form is answered BADCMD by `bad`. -/
def State.sesTake (s : State) (m code need ext : Nat) (rsvd : List (Nat × Nat)) (bad : State → State)
    (k : Bytes → Bytes → Nat → State → State) : State :=
  if s.sesReady m then
    let e := s.bytes (mboxAddr m (256 * s.fld .MB_STAT [m] F.MB_STAT_CHEAD)) 256
    let c := (byteAt e 0).toNat
    let tag := slice e 4 4
    if decide (c ≠ code) && sesCodes.contains c then s
    else if c ≠ code then (s.cmdTake m).respond m tag 4 []
    else if sesShape e need ext rsvd then k (slice e 16 240) tag (leNat (slice e 2 2)) (s.cmdTake m)
    else bad ((s.cmdTake m).respond m tag 4 [])
  else s

/-- A command of an open session of a permitted kind (0 operator, 1 tenant, 2 both); `early` for what is accepted before UTC is set
(R359, R361). -/
def State.sesOpenTake (s : State) (m code need ext : Nat) (rsvd : List (Nat × Nat)) (kind : Nat) (early : Bool)
    (k : Bytes → Bytes → Nat → State → State) : State :=
  s.sesTake m code need ext rsvd id fun b tag n s =>
    let w := s.reg .SESS [m]
    if decide (F.SESS_STATE.get w ≠ 2) || (decide (kind < 2) && decide (F.SESS_KIND.get w ≠ kind)) then s.respond m tag 3 []
    else if !s.utcSet && !early then s.respond m tag 6 []
    else k b tag n s

/-- Whether the session of a mailbox may act on a polder: an operator on any, a tenant on its own. -/
def State.sesPolderOk (s : State) (m d : Nat) : Bool :=
  decide (s.fld .SESS [m] F.SESS_KIND = 0) || decide (s.fld .SESS [m] F.SESS_TENANT = s.tenant d)

/-- An action tried with a flag of its register cleared first: the state and whether the flag stayed clear. -/
def State.tryFlag (s : State) (r : Reg) (i : List Nat) (f : Fld) (k : State → State) : State × Bool :=
  let s' := k (s.setFld r i f 0)
  if s'.fld r i f = 1 then (s', false) else ({ s'.setFld r i f (s.fld r i f) with raised := s'.raised }, true)

/-- OK, or REFUSED with the flag that was set. -/
def State.okOr (x : State × Bool) (m : Nat) (tag : Bytes) (r : Reg) (i : List Nat) (f : Fld) : State :=
  if x.2 then x.1.respond m tag 0 [] else x.1.refused m tag r i f

/-! ### Opening and closing (R359) -/

/-- Another open operator session. -/
def State.operatorOpen (s : State) : Bool :=
  (List.range 16).any fun m => decide (s.fld .SESS [m] F.SESS_STATE = 2) && decide (s.fld .SESS [m] F.SESS_KIND = 0)

/-- The status that refuses an OPEN of a kind with a version for a tenant, if any (R359, R361, Table 16-7). -/
def State.openRefusal (s : State) (kind tenant major minor : Nat) : Option Nat :=
  if decide (1 < kind) || (decide (kind = 1) && decide (tenant = 0)) || (decide (kind = 0) && decide (tenant ≠ 0)) then some 4
  else if decide (major ≠ s.fld .HOST_ID [] F.HOST_ID_IFMAJ) || decide (s.fld .HOST_ID [] F.HOST_ID_IFMIN < minor) then some 1
  else if !(decide (s.lc = 2) || (decide (s.lc = 3) && decide (kind = 0))) then some 3
  else if decide (kind = 1) && !s.utcSet then some 6
  else if decide (kind = 0) && s.operatorOpen then some 7
  else none

/-- OPEN (R359). -/
def execSesOpen (m : MboxIx) (s : State) : Host.Outcome State Fault Refusal :=
  .next (s.sesTake m 1 6 6 [(3, 1)] (fun s => if s.fld .SESS [m] F.SESS_STATE = 0 then s.freeMbox m else s) fun b tag _ s =>
    let major := (byteAt b 1).toNat; let minor := (byteAt b 0).toNat
    let kind := (byteAt b 2).toNat; let tenant := leNat (slice b 4 2)
    if s.fld .SESS [m] F.SESS_STATE ≠ 0 then s.respond m tag 3 []
    else
      match s.openRefusal kind tenant major minor with
      | some st => (s.respond m tag st []).freeMbox m
      | none =>
        let chal := natLe 32 (Config.freeValue s.free).toNat
        let w := F.SESS_IFMIN.set (F.SESS_IFMAJ.set (F.SESS_TENANT.set (F.SESS_KIND.set (s.reg .SESS [m]) kind) tenant) major) minor
        let s := ((s.useFree.setReg .SESS [m] w).setSession m 1).modMbox m fun x => { x with chal := chal }
        s.respond m tag 0 chal)

/-- Whether a PROVE of a mailbox holds (R359, R368, R369): signature, and for an operator the owner key after it. -/
def State.proved (s : State) (m : Nat) (b : Bytes) : Bool :=
  let msg := (s.mbox m).chal ++ devId ++ [BitVec.ofNat 8 m]
  let sig := slice b 0 114
  if s.fld .SESS [m] F.SESS_KIND = 0 then s.ownerSigned (slice b 114 57) msg sig
  else s.tenantSigned (s.fld .SESS [m] F.SESS_TENANT) msg sig

/-- What is retained, delivered to an operator session that opens (R360, R362). -/
def State.redeliver (s : State) (m : Nat) : State :=
  s.retained.foldl (fun s x => s.post m (eventEntry x.2.1 [] 0 x.2.2)) s

/-- PROVE (R359). -/
def execSesProve (m : MboxIx) (s : State) : Host.Outcome State Fault Refusal :=
  .next (s.sesTake m 2 114 171 [] id fun b tag n s =>
    let kind := s.fld .SESS [m] F.SESS_KIND
    if s.fld .SESS [m] F.SESS_STATE ≠ 1 then s.respond m tag 3 []
    else if n < (if kind = 0 then 171 else 114) then s.respond m tag 4 []
    else if !s.proved m b then (s.respond m tag 2 []).freeMbox m
    else if decide (kind = 0) && s.operatorOpen then (s.respond m tag 7 []).freeMbox m
    else
      let s := (s.setSession m 2).respond m tag 0 []
      if kind = 0 then s.redeliver m else s)

/-- CLOSE. -/
def execSesClose (m : MboxIx) (s : State) : Host.Outcome State Fault Refusal :=
  .next (s.sesOpenTake m 3 0 0 [] 2 true fun _ tag _ s => (s.respond m tag 0 []).freeMbox m)

/-! ### Operator commands -/

/-- SET_UTC (R232): the calendar takes the UTC second and is persisted. -/
def execSesSetUtc (m : MboxIx) (s : State) : Host.Outcome State Fault Refusal :=
  .next (s.sesOpenTake m 0x10 8 8 [] 0 true fun b tag _ s =>
    let c := leNat (slice b 0 8) * 1792000000000
    { s with cal := c, calFlash := c, utcSet := true }.respond m tag 0 [])

/-- The STG fields of a register. -/
def stgFields (r : Reg) : List Fld := r.info.flds.filter fun f => decide (f.acc = .stg)

/-- A STAGE offset's register, if it holds an STG field (R433). -/
def stageReg (o : Nat) : Option (Reg × List Nat) := (Reg.chipAt o).filter fun x => !(stgFields x.1).isEmpty

/-- The pairs of a STAGE body. -/
def stagePairs (b : Bytes) (n : Nat) : List (Nat × W64) :=
  (List.range (n / 16)).map fun i => (leNat (slice b (16 * i) 8), BitVec.ofNat 64 (leNat (slice b (16 * i + 8) 8)))

/-- Whether a pair would set EN of a retired port (R394, R433). -/
def State.retiredEn (s : State) (p : Nat × W64) : Bool :=
  match stageReg p.1 with
  | some (.PORT_CFG, k :: _) => s.retired.contains k && decide (F.PORT_CFG_EN.get p.2 = 1)
  | _ => false

/-- One pair written: its STG fields, FSET not while caps apply to its domain (R400, R433). -/
def State.stagePair (s : State) (p : Nat × W64) : State :=
  match stageReg p.1 with
  | none => s
  | some (r, i) =>
    let w := writeFields (stgFields r) (s.reg r i) p.2
    let w := if decide (r = .DOM_CFG) && decide (s.fld .DOM_CAP (i.take 1) F.DOM_CAP_M < 64) then
        F.DOM_CFG_FSET.set w (s.fld .DOM_CFG i F.DOM_CFG_FSET)
      else w
    s.setReg r i w

/-- STAGE (R433). -/
def execSesStage (m : MboxIx) (s : State) : Host.Outcome State Fault Refusal :=
  .next (s.sesOpenTake m 0x11 16 224 [] 0 false fun b tag n s =>
    let ps := stagePairs b n
    if decide (n % 16 ≠ 0) || decide (224 < n) || !(ps.all fun p => (stageReg p.1).isSome) then s.respond m tag 4 []
    else if s.commit.isSome then
      (s.setFld .COMMIT_STAT [] F.COMMIT_STAT_CFG_REJ 1).refused m tag .COMMIT_STAT [] F.COMMIT_STAT_CFG_REJ
    else if ps.any s.retiredEn then s.refusedPlain m tag
    else { ps.foldl State.stagePair s with opStaged := true }.respond m tag 0 [])

/-- COMMIT (R338): bytes 0 to 7 COMMIT_AT, 8 to 11 COMMIT_CTL. -/
def execSesCommit (m : MboxIx) (s : State) : Host.Outcome State Fault Refusal :=
  .next (s.sesOpenTake m 0x12 12 12 [] 0 false fun b tag _ s =>
    let v := BitVec.ofNat 64 (leNat (slice b 8 4))
    let go := F.COMMIT_CTL_GO.get v = 1
    if decide (v ≠ keepFields (Reg.info .COMMIT_CTL).flds v) || decide (F.COMMIT_CTL_GO.get v + F.COMMIT_CTL_ABORT.get v = 0) then
      s.respond m tag 4 []
    else
      let s := if F.COMMIT_CTL_ABORT.get v = 1 then s.commitAbort else s
      if !go then s.respond m tag 0 []
      else if s.commit.isSome then
        (s.setFld .COMMIT_STAT [] F.COMMIT_STAT_CFG_REJ 1).refused m tag .COMMIT_STAT [] F.COMMIT_STAT_CFG_REJ
      else
        (s.setReg .COMMIT_AT [] (BitVec.ofNat 64 (leNat (slice b 0 8)))).commitGo
          (if F.COMMIT_CTL_AT_GUN.get v = 1 then some (F.COMMIT_CTL_CH.get v) else none) (some (m, tag)))

/-- POLDER (R333): byte 0 the polder, byte 1 0 START, 1 KILL, 2 FINISH. -/
def execSesPolder (m : MboxIx) (s : State) : Host.Outcome State Fault Refusal :=
  .next (s.sesOpenTake m 0x13 2 2 [] 2 false fun b tag _ s =>
    let d := (byteAt b 0).toNat; let op := (byteAt b 1).toNat
    if decide (7 < d) || decide (2 < op) then s.respond m tag 4 []
    else if !s.sesPolderOk m d then s.respond m tag 3 []
    else
      let x := s.tryFlag .POLDER_STAT [d] F.POLDER_STAT_CFG_REJ fun s =>
        if op = 0 then s.polderStart d else s.polderEnd d (decide (op = 1))
      State.okOr x m tag .POLDER_STAT [d] F.POLDER_STAT_CFG_REJ)

/-! ### Tenant commands -/

/-- Whether a PROGRAM body holds for its polder (R375). -/
def State.programOk (s : State) (m d : Nat) (b : Bytes) : Bool :=
  match s.tenantRec (s.fld .SESS [m] F.SESS_TENANT) with
  | none => false
  | some r =>
    ed448Verify r.pub (ascii "ZN4000 PROG" ++ slice b 1 49) (slice b 50 114) && decide (slice b 34 16 = s.capsDig) &&
      decide ((byteAt b 1).toNat = s.app .DET_CFG [d] F.DET_CFG_DET)

/-- PROGRAM (R329, R375): RCPT_PROG written and receipts enabled, before START. -/
def execSesProgram (m : MboxIx) (s : State) : Host.Outcome State Fault Refusal :=
  .next (s.sesOpenTake m 0x14 164 164 [] 1 false fun b tag _ s =>
    let d := (byteAt b 0).toNat
    if 7 < d then s.respond m tag 4 []
    else if !s.sesPolderOk m d then s.respond m tag 3 []
    else if s.programOk m d b then
      let x := s.tryFlag .RCPT_STAT [d] F.RCPT_STAT_CFG_REJ fun s =>
        let s := (List.range 4).foldl (fun s i => s.wrRcptProg .mgmt d i (BitVec.ofNat 64 (leNat (slice b (2 + 8 * i) 8)))) s
        s.wrRcptCfg .mgmt d (F.RCPT_CFG_EN.set (s.reg .RCPT_CFG [d]) 1)
      State.okOr x m tag .RCPT_STAT [d] F.RCPT_STAT_CFG_REJ
    else (s.setFld .RCPT_STAT [d] F.RCPT_STAT_CFG_REJ 1).refused m tag .RCPT_STAT [d] F.RCPT_STAT_CFG_REJ)

/-- EPOCH (R283, R285): byte 0 the polder, 1 OP of EP_CTL, 2 the slot, 4 to 7 ARG; for OPEN 8 EP_ID, 16 EP_SH, 24 to 87 EP_DIG. -/
def execSesEpoch (m : MboxIx) (s : State) : Host.Outcome State Fault Refusal :=
  .next (s.sesOpenTake m 0x15 8 88 [(3, 1)] 1 false fun b tag n s =>
    let d := (byteAt b 0).toNat; let op := (byteAt b 1).toNat; let sl := (byteAt b 2).toNat
    let word := fun i : Nat => BitVec.ofNat 64 (leNat (slice b (8 + 8 * i) 8))
    if decide (7 < d) || decide (3 < sl) || decide (op = 0) || decide (3 < op) || (decide (op = 1) && decide (n < 88)) then s.respond m tag 4 []
    else if !s.sesPolderOk m d then s.respond m tag 3 []
    else
      let x := s.tryFlag .EP_CFG [d] F.EP_CFG_REJ fun s =>
        let s := if op = 1 then
            let s := (s.wrEpSlot .mgmt .EP_ID [d, sl] (word 0)).wrEpSlot .mgmt .EP_SH [d, sl] (word 1)
            (List.range 8).foldl (fun s i => s.wrEpSlot .mgmt .EP_DIG [d, sl, i] (word (2 + i))) s
          else s
        s.wrEpCtl .mgmt d (F.EP_CTL_ARG.set (F.EP_CTL_SLOT.set (F.EP_CTL_OP.set 0 op) sl) (leNat (slice b 4 4)))
      State.okOr x m tag .EP_CFG [d] F.EP_CFG_REJ)

/-- RETIER (R294, R299): byte 0 the sketch, 1 RETIER, 2 DECAY, 4 MOVEMAX, 6 PROMO. Terern unbinds the sketch and binds it with the new
bounds. -/
def execSesRetier (m : MboxIx) (s : State) : Host.Outcome State Fault Refusal :=
  .next (s.sesOpenTake m 0x16 8 8 [(3, 1)] 1 false fun b tag _ s =>
    let n := (byteAt b 0).toNat
    let w := s.reg .HEAT_TBL [n]
    if decide (63 < n) || decide (1 < (byteAt b 1).toNat) || decide (15 < (byteAt b 2).toNat) then s.respond m tag 4 []
    else if F.HEAT_TBL_EN.get w = 0 then s.refusedPlain m tag
    else if !s.sesPolderOk m (F.HEAT_TBL_POLDER.get w) then s.respond m tag 3 []
    else
      let v := F.HEAT_TBL_DECAY.set (F.HEAT_TBL_RETIER.set w (byteAt b 1).toNat) (byteAt b 2).toNat
      let v := F.HEAT_TBL_PROMO.set (F.HEAT_TBL_MOVEMAX.set v (leNat (slice b 4 2))) (leNat (slice b 6 2))
      ((s.wrHeatTbl .mgmt n (F.HEAT_TBL_EN.set v 0)).wrHeatTbl .mgmt n v).respond m tag 0 [])

/-- ATTEST (R376): byte 0 the polder, 1 to 32 the nonce. -/
def execSesAttest (m : MboxIx) (s : State) : Host.Outcome State Fault Refusal :=
  .next (s.sesOpenTake m 0x17 33 33 [] 2 true fun b tag _ s =>
    let d := (byteAt b 0).toNat
    if 7 < d then s.respond m tag 4 []
    else s.respond m tag 0 (s.report d (s.sesPolderOk m d) (slice b 1 32)))

end Sys2Proof.Machine
end

