-- ==== Sys2Proof/Machine/Funnel.lean ====
section
/-! DEFINITION. The fault funnel: fault reports on their way through the routers, cases, transient and permanent faults (R392 to R398). -/
namespace Sys2Proof.Machine

/-! ### Reports (R396 to R398) -/

/-- The suspects a report names. -/
def repSuspects (r : Report) : List Nat := [r.cul0, r.cul1].filter (· ≠ 0xFFFF)

/-- The suspects of a case. -/
def Case.suspects (c : Case) : List Nat := c.reps.flatMap repSuspects

/-- Whether a report joins an open case. -/
def Case.takes (c : Case) (r : Report) : Bool :=
  decide (c.opened ≤ r.wt) && decide (r.wt < c.opened + 25600000) && (repSuspects r).any c.suspects.contains

/-- The case that a report opens, or joins; of the cases it joins the merged one keeps the earliest opening and closes at the latest of their
closings (R398). -/
def joinCases (r : Report) (cs : List Case) : Case :=
  match cs with
  | [] => ⟨r.wt, r.wt + 25600000, [r], false⟩
  | c :: rest =>
    let a := rest.foldl (fun a c => ⟨min a.opened c.opened, max a.closes c.closes, a.reps ++ c.reps, a.incomplete || c.incomplete⟩) c
    { a with reps := a.reps ++ [r] }

/-- Whether the funnel has a place for a report: a case to join, or fewer than 64 open. -/
def State.funnelFits (s : State) (r : Report) : Bool := (s.cases.any fun c => c.takes r) || decide (s.cases.length < 64)

/-- A report placed in its case. -/
def State.funnelPlace (s : State) (r : Report) : State :=
  { s with cases := (s.cases.filter fun c => !c.takes r) ++ [joinCases r (s.cases.filter fun c => c.takes r)] }

/-- A report at the funnel: the FAULT trigger of a freeze is looked at (R417); the report is placed, queued, or dropped and counted. -/
def State.funnelIn (s : State) (r : Report) : State :=
  let m := s.fld .FRZ_FCLS [] F.FRZ_FCLS_MASK
  let hit := decide (s.fld .FRZ_CFG [] F.FRZ_CFG_FAULT = 1) && decide (r.cls &&& m = s.fld .FRZ_FCLS [] F.FRZ_FCLS_CLASS &&& m)
  let s := if hit then s.launch 2 none else s
  if s.funnelQ.isEmpty && s.funnelFits r then s.funnelPlace r
  else if s.funnelQ.length < 4096 then { s with funnelQ := s.funnelQ ++ [r] }
  else { s.incSat .FUNNEL_STAT [] F.FUNNEL_STAT_DROP_CNT 1 with lostReport := true }

/-- Queued reports taken up in order while the funnel has a place for the first. -/
def State.funnelDrain : Nat → State → State
  | 0, s => s
  | k + 1, s =>
    match s.funnelQ with
    | [] => s
    | r :: rs => if s.funnelFits r then State.funnelDrain k ({ s with funnelQ := rs }.funnelPlace r) else s

/-- The key a report has in its router. -/
def repKey (r : Report) : RouterKey := ⟨r.rep, r.cls, r.cul0, r.cul1⟩

/-- The tenant tag of a reporter's packets; 0 for units of no polder (Table 9-16). -/
def State.repTenant (s : State) (u : Nat) : Nat := if u < 1152 then (s.sender u).2 else 0

/-- FAULT_REPORT (R397, R398): a key its router has held for less than 1 µs merges the report; else the router takes its key, if one of its 16
is free, and forwards it. On a frozen device it stays where it is (R419). -/
def execFaultReport (rep : Report) (s : State) : Host.Outcome State Fault Refusal :=
  .next (if s.isFrozen then s
    else
      let s := { s with reports := s.reports.erase rep }
      let live := fun k : RKey => decide (s.wt < k.since + 256000)
      let s := { s with routerKeys := s.routerKeys.filter fun k => live k || decide (k.count ≠ 0) }
      match s.routerKeys.find? fun k => decide (k.key = repKey rep) && live k with
      | some k =>
        let k' : RKey := { k with count := k.count + rep.weight, sec := k.sec && rep.sec, last := s.wt }
        { s with routerKeys := s.routerKeys.map fun x => if x = k then k' else x }
      | none =>
        let used := (s.routerKeys.filter fun k => decide (k.key.router = rep.rep) && live k).length
        let s := if used < 16 then { s with routerKeys := s.routerKeys ++ [⟨repKey rep, s.wt, 0, true, s.wt⟩] } else s
        s.route ⟨1171, rep.rep, s.repTenant rep.rep, 3, 0⟩ fun s => s.funnelIn rep)

/-- SUMMARY (R397): a key expires; with a count it sends one report of that weight. -/
def execSummary (k : RouterKey) (s : State) : Host.Outcome State Fault Refusal :=
  .next (if s.isFrozen then s
    else
      match s.routerKeys.find? fun x => decide (x.key = k) with
      | none => s
      | some x =>
        let s := s.toWt (x.since + 256000)
        let s := { s with routerKeys := s.routerKeys.erase x }
        if x.count = 0 then s
        else
          s.route ⟨1171, k.router, s.repTenant k.router, 3, 0⟩ fun s =>
            s.funnelIn ⟨k.router, k.cls, x.sec, true, k.cul0, k.cul1, x.count, x.last, List.replicate 13 0⟩)

/-- SUSPECT (R397, Table 17-1): a report of class 0xFE of the management core, and the tile's region is tested at its next reset. -/
def execSuspect (s : State) : Host.Outcome State Fault Refusal :=
  .next (s.mgmtTake 3 (fun q => decide (bits q.w0.toNat 19 11 = 0) && decide (bits q.w0.toNat 10 0 < 1152) && decide (q.w1 = 0)) fun q s =>
    let t := bits q.w0.toNat 10 0
    { s with testMarks := t :: s.testMarks.filter (· ≠ t) }.funnelIn (s.mkReport 1171 0xFE (culTile t) culNone []))

/-! ### Closing a case (R392, R398) -/

/-- Reports in order of WT, equal ones in order of REP. -/
def sortReps (l : List Report) : List Report :=
  l.foldl (fun a r =>
    let le := fun x : Report => decide (x.wt < r.wt) || (decide (x.wt = r.wt) && decide (x.rep ≤ r.rep))
    a.filter le ++ [r] ++ a.filter fun x => !le x) []

/-- The score of a suspect. -/
def Case.score (c : Case) (x : Nat) : Nat :=
  ((c.reps.filter fun r => !r.sec && (repSuspects r).contains x).map Report.weight).foldl (· + ·) 0

/-- The suspects in rank order: score, then kind, then index, the lower first; a suspect's coding orders kind before index. -/
def Case.ranked (c : Case) : List Nat :=
  c.suspects.eraseDups.foldl (fun a x =>
    let first := fun y => decide (c.score x < c.score y) || (decide (c.score y = c.score x) && decide (y < x))
    a.filter first ++ [x] ++ a.filter fun y => !first y) []

/-- The culprit of a case: the top suspect, or that of the earliest report where every report is secondary. -/
def Case.culprit (c : Case) : Nat :=
  if c.reps.all Report.sec then ((sortReps c.reps).head?.map Report.cul0).getD 0xFFFF else (c.ranked.head?).getD 0xFFFF

/-- CLASS of a case: that of its earliest report that is not secondary. -/
def Case.cls (c : Case) : Nat :=
  let rs := sortReps c.reps
  (((rs.filter fun r => !r.sec) ++ rs).head?.map Report.cls).getD 0

/-- The region of a suspect, for a tile, a tower layer or a region. -/
def suspectRegion (x : Nat) : Option Nat :=
  let i := x % 4096
  match x / 4096 with
  | 0 => some (regionOf i)
  | 3 => some (i / 4)
  | 4 => some i
  | _ => none

/-- FAULT_CASE with its record (Table 17-6). -/
def State.caseEvent (s : State) (cul opened cls : Nat) (incomplete perm : Bool) (action reports : Nat) (sus : List (Nat × Nat)) : State :=
  let s := { s with caseNo := s.caseNo + 1 }.incWrap .FUNNEL_STAT [] F.FUNNEL_STAT_CASE_CNT 1
  let flags := (if incomplete then 1 else 0) + if perm then 2 else 0
  let pairs := (sus.take 8).flatMap fun x => natLe 2 x.1 ++ natLe 2 (min x.2 0xFFFF)
  s.event 4 ((suspectRegion cul).bind s.polderOf)
    (padTo (natLe 4 s.caseNo ++ natLe 9 opened ++ natLe 1 cls ++ natLe 1 flags ++ natLe 1 action ++ natLe 4 reports ++ pairs) 52)

/-- How many faults of some classes with a culprit that `f` accepts lie in a window of `h` hours that ends now. -/
def State.pastCount (s : State) (h : Nat) (f : Past → Bool) : Nat :=
  ((s.past.filter fun p => f p && decide (s.wt < p.wt + h * 3600000000000 * 256)).map Past.n).foldl (· + ·) 0

/-- Whether the line or row that a report names failed after it had been rewritten. -/
def State.again (s : State) (r : Report) : Bool :=
  let line := leNat (slice r.detail 6 2)
  let code := leNat (slice r.detail 0 8)
  let key :=
    if r.cls = 0xA6 then some (lineKey (r.cul0 % 4096) line)
    else if r.cls = 0xA5 then some (rowKey (r.cul0 % 4096) line)
    else if r.cls = 0x58 then
      let g := r.cul0 % 4096 / 4
      (s.physLine g (code / 2 ^ 38 * 2 + code / 2 ^ 37 % 2)).map fun p => twrAddr g (64 * p) / 64
    else none
  match key with
  | some k => s.rewritten.any fun x => decide (x.1 = k) && decide (x.2 ≤ r.wt)
  | none => false

/-- The action of Table 17-4 for a case with a culprit; 0 where it is transient. -/
def State.permanent (s : State) (c : Case) (cul : Nat) : Nat :=
  let i := cul % 4096
  let rs := c.reps.filter fun r => !r.sec && decide (r.cul0 = cul)
  let has := fun l : List Nat => rs.any fun r => l.contains r.cls
  let skew := 0x90 + (Config.faultCode 4).toNat
  match cul / 4096 with
  | 0 =>
    if has [0xA5, 0xA6] && (rs.any s.again || decide (4 ≤ s.pastCount 1 fun p => decide (p.cul = cul) && [0xA5, 0xA6].contains p.cls)) then 2
    else if has [0x44] && decide (2 ≤ s.pastCount 1 fun p => decide (p.cls = 0x44) && decide (regionOf (p.cul % 4096) = regionOf i)) then 4
    else 0
  | 2 => if s.retired.contains i then 5 else 0
  | 3 =>
    if (has [0x58] && (rs.any s.again || decide (8 ≤ s.pastCount 24 fun p => decide (p.cul = cul) && decide (p.cls = 0x58)))) then 3 else 0
  | 4 => if has [skew] && decide (3 ≤ s.pastCount 1 fun p => decide (p.cul = cul) && decide (p.cls = skew)) then 4 else 0
  | _ => 0

/-- The unit marked for the action at its next region reset (R392, R395). -/
def State.markFor (s : State) (action cul : Nat) : State :=
  let i := cul % 4096
  match action with
  | 2 => { s with repairMarks := i :: s.repairMarks.filter (· ≠ i) }
  | 3 => { s with layerMarks := i :: s.layerMarks.filter (· ≠ i) }
  | 4 =>
    let r := (suspectRegion cul).getD 0
    { s with regionMarks := r :: s.regionMarks.filter (· ≠ r) }
  | _ => s

/-- The ABORTED channels that a case concerns: a member tile reported, or the culprit lies in a member region. -/
def State.caseChans (s : State) (c : Case) (cul : Nat) : List Nat :=
  (List.range 64).filter fun k =>
    decide (s.chState k = 4) &&
      ((c.reps.any fun r => !r.sec && decide (r.rep < 1152) && bit (s.chMask k) (regionOf r.rep)) ||
        match suspectRegion cul with
        | some r => bit (s.chMask k) r
        | none => false)

/-- The lines that the towers' own reports of a case name (R67): polder with an order ring, region, half, block, each once. -/
def State.lostLines (s : State) (c : Case) : List (Nat × Nat × Nat × Nat) :=
  ((c.reps.filter fun r => decide (r.cls = 0x58) && decide (r.cul0 / 4096 = 3) && !r.summary).filterMap fun r =>
    let g := r.cul0 % 4096 / 4
    let code := leNat (slice r.detail 0 8)
    (s.polderOf g).bind fun d => if (s.orderRing d).isSome then some (d, g, code / 2 ^ 37 % 2, code / 2 ^ 38) else none).eraseDups

/-- The channels of a transient case that are to re-run (R392): RERUN is 1, and the case is no GUN_TIMEOUT (R393). -/
def State.rerunChans (s : State) (c : Case) (chans : List Nat) : List Nat :=
  chans.filter fun ch => decide (s.fld .GUN_CHAN [ch] F.GUN_CHAN_RERUN = 1) && decide (c.cls ≠ 0x82)

/-- A RELOAD order for every line that a transient case has lost, with the channels whose re-run waits for it (R298). -/
def State.reload (chs : List Nat) (s : State) (ls : List (Nat × Nat × Nat × Nat)) : State :=
  ls.foldl (fun s l =>
    let no := (s.retier l.1).order
    { s.order l.1 3 0 l.2.1 l.2.2.1 0 l.2.2.2 with reloads := s.reloads ++ [⟨l.1, no, chs, l.2.1, l.2.2.1, l.2.2.2⟩] }) s

/-- What Terern does for a transient case: RELOAD orders for lost tower lines, whose reports the re-runs wait for (R67, R298), else the re-runs
at once (R392). A lost line whose polder has no order ring can be reported by nobody, and its channels stay ABORTED. -/
def State.transient (s : State) (c : Case) (cul : Nat) (chans : List Nat) : State :=
  let chs := s.rerunChans c chans
  let ls := s.lostLines c
  let s := s.reload chs ls
  if ls.isEmpty && decide (cul / 4096 ≠ 3) then chs.foldl (fun s ch => s.terernGo ch) s else s

/-- The faults of a case entered for the criteria of Table 17-4; those older than a day are forgotten. -/
def State.enterPast (s : State) (c : Case) : State :=
  let old := s.past.filter fun p => decide (s.wt < p.wt + 24 * 3600000000000 * 256)
  { s with past := old ++ (c.reps.filter fun r => !r.sec).map fun r => ⟨r.cls, r.cul0, r.wt, r.weight⟩ }

/-- Layers whose corrections met their criterion: one FAULT_CASE each (R392). -/
def State.ceReport (s : State) : State :=
  s.ceCases.foldl (fun s k => s.caseEvent (0x3000 + k) s.wt 0x58 false true 3 0 [(0x3000 + k, 0)]) { s with ceCases := [] }

/-- A case decided (R392, R393, R398). -/
def State.closeCase (s : State) (c : Case) : State :=
  let cul := c.culprit
  let s := s.enterPast c
  let act := s.permanent c cul
  let chans := s.caseChans c cul
  let killed := fun s' : State => (List.range 8).any fun d => (sget none s'.quarAt d).isSome && (sget none s.quarAt d).isNone
  let s1 := if act = 0 then s.transient c cul chans else chans.foldl (fun s ch => s.segFailed ch) (s.markFor act cul)
  let ran := chans.any fun ch => decide (s1.chState ch ≠ 4) && decide (s1.chState ch ≠ 5)
  let action := if act ≠ 0 then act else if killed s1 then 6 else if ran then 1 else 0
  let inc := c.incomplete || s.lostReport
  ({ s1 with lostReport := false }.caseEvent cul c.opened c.cls inc (decide (act ≠ 0)) action ((c.reps.map Report.weight).foldl (· + ·) 0)
    (c.ranked.map fun x => (x, c.score x)))

/-- CASE_CLOSE (R398): the open case that closes first, at its closing. -/
def execCaseClose (s : State) : Host.Outcome State Fault Refusal :=
  .next (match s.cases.foldl (fun b c => match b with
      | none => some c
      | some x => if c.closes < x.closes then some c else some x) (none : Option Case) with
    | none => s.ceReport
    | some c =>
      let s := { s with cases := s.cases.erase c }.toWt c.closes
      State.funnelDrain 4096 (s.closeCase c).ceReport)

end Sys2Proof.Machine
end

