-- ==== Sys2Proof/Machine/Upkeep.lean ====
section
/-! DEFINITION. What Terern does in service: images, the lists in flash, records, orderly power-down, the capping loop, guardbands and wear
(R388, R394, R399, R400, R402, R403, R407). -/
namespace Sys2Proof.Machine

/-! ### Images and lists -/

/-- An image written to its slot. -/
def State.putImage (s : State) (slotB : Bool) (img : Bytes) : State := s.setBytes (imageAt slotB) (img.take 0x1000000)

/-- IMAGE_WRITE (R387, R388): in RECOVERY the ROM verifies an image and then writes it, to either slot; else Terern writes it to the slot that
is not running, verifies it there, and puts it on trial. FWREJ where it is not accepted. -/
def execImageWrite (slotB : Bool) (image : Bytes) (s : State) : Host.Outcome State Fault Refusal :=
  .next (if s.stageNow = 15 then
      if s.imageOk image then s.putImage slotB image else s.setFld .FW_STAT [] F.FW_STAT_FWREJ 1
    else if s.terern && decide (slotB ≠ s.boot.imageB) then
      let s := s.putImage slotB image
      if s.imageOk (s.imageIn slotB) then { s with flash := { s.flash with prefB := slotB, trial := true, tries := 3 } }
      else s.setFld .FW_STAT [] F.FW_STAT_FWREJ 1
    else s)

/-- LIST_CLEAR (R394): the port leaves the list of retired ports; retired regions and mapped-out layers leave theirs by the next BIST that
passes. -/
def execListClear (p : PortIx) (s : State) : Host.Outcome State Fault Refusal :=
  .next (if s.terern then
      let part := (List.range 24).filter fun r => s.flash.absent.contains r || decide (sget 15 s.flash.pres r ≠ 15)
      { s with retired := s.retired.filter (· ≠ p.val), cleared := part }
    else s)

/-! ### Records (R232, R346, R403) -/

/-- Lifetime counters, meter sequences, certificate sequence and calendar written to flash. -/
def State.persist (s : State) : State :=
  let s := s.pohSettle
  let seqs := (List.range 8).foldl (fun (m : SMap Nat) d => sput 0 m d (s.reg .MTR [d, 15]).toNat) []
  { s with calFlash := s.cal, flash := { s.flash with mseq := seqs, cseq := s.cseq, life := s.life } }

/-- HOURLY_PERSIST (R403): the records are persisted; layers whose corrections met their criterion are reported (R392). -/
def execHourlyPersist (s : State) : Host.Outcome State Fault Refusal :=
  .next (if s.terern then s.persist.ceReport else s)

/-- POWER_DOWN (R407): the records are persisted, READY is answered, the fabric clocks stop. -/
def execPowerDown (s : State) : Host.Outcome State Fault Refusal :=
  .next (if s.terern then { s.persist with out := s.out ++ [.ready], clockStop := true } else s)

/-! ### Wear (Table 17-8) -/

/-- Powers of two by tenths, in units of 2^-32, rounded down. -/
def pow2Tenths : List Nat :=
  [4294967296, 4603231970, 4933621867, 5287724991, 5667243323, 6074000999, 6509953083, 6977194956, 7477972397, 8014692369]

/-- STRESS of one ms at `mv` mV and `tj` °C: (V / 0.75)^4 × 2^((T − 85) / 10), in units in which `stressKs` is a ks at 0.75 V and 85 °C. -/
def stressMs (mv tj : Nat) : Nat := mv ^ 4 * pow2Tenths.getD ((tj + 5) % 10) 0 * 2 ^ ((tj + 5) / 10)
/-- One ks at 0.75 V and 85 °C in those units: 10^6 ms. -/
def stressKs : Nat := 1000000 * 750 ^ 4 * 2 ^ 41

/-- One ms of wear of an awake region: STRESS with its part of a ks carried. -/
def State.wearStress (s : State) (r tj : Nat) : State :=
  let n := sget 0 s.life (0x1010 + r) + stressMs (s.fld .HALF_STAT [halfOf r] F.HALF_STAT_MV) tj
  { s with life := sput 0 s.life (0x1010 + r) (n % stressKs) }.lifeAdd (0x10 + r) (n / stressKs)

/-- A swing of a region's hottest diode: what is kept is 0, or twice the minimum plus 2 while a rise of 40 °C is awaited, or twice the maximum
plus 1 after it. -/
def State.wearSwing (s : State) (r tj : Nat) : State :=
  let k := sget 0 s.life (0x1030 + r)
  let put := fun (s : State) (v : Nat) => { s with life := sput 0 s.life (0x1030 + r) v }
  if k = 0 then put s (2 * tj + 2)
  else if k % 2 = 0 then
    let lo := k / 2 - 1
    if tj < lo then put s (2 * tj + 2) else if lo + 40 ≤ tj then put (s.lifeAdd (0x30 + r) 1) (2 * tj + 1) else s
  else if tj < k / 2 then put s (2 * tj + 2) else put s (2 * tj + 1)

/-- One ms of wear: the regions that the diodes report and that are awake (STRESS), and their swings. -/
def State.wear (s : State) (tj : List (RegionIx × Nat)) : State :=
  tj.foldl (fun s x => (if s.regState x.1 = 3 then s.wearStress x.1 x.2 else s).wearSwing x.1 x.2) s

/-! ### Capping (R399, R400) -/

/-- The hottest diode of a domain's regions. -/
def State.hottest (s : State) (x : PowerInputs) (d : Nat) : Nat :=
  (x.tj.filter fun e => bit (s.apMask d) e.1).foldl (fun m e => max m e.2) 0
/-- The energy per tile of a domain. -/
def energyOf (x : PowerInputs) (d : Nat) : Nat := ((x.energy.find? fun e => decide (e.1.val = d)).map Prod.snd).getD 0
/-- cap[d]. -/
def State.cap (s : State) (d : Nat) : Nat := s.fld .DOM_CAP [d] F.DOM_CAP_M
/-- cap[d] written. -/
def State.setCapM (s : State) (d m : Nat) : State := s.setFld .DOM_CAP [d] F.DOM_CAP_M m
/-- The domains of polders that are not FREE. -/
def State.capDoms (s : State) : List Nat := (List.range 8).filter fun d => decide (s.polderState d ≠ 0)
/-- The domain that `better` prefers, the lowest of equals. -/
def pickDom (better : Nat → Nat → Bool) : List Nat → Option Nat
  | [] => none
  | d :: ds => match pickDom better ds with
    | none => some d
    | some e => if better e d then some e else some d

/-- cap[d] after a pass (R399). -/
def State.capStep (s : State) (x : PowerInputs) (d : Nat) : State :=
  let tlim := s.fld .THERM_CFG [] F.THERM_CFG_TLIM
  let lim := s.fld .PWR_CFG [] F.PWR_CFG_PKG_LIM
  let tj := s.hottest x d
  let most := pickDom (fun e d => decide (energyOf x d < energyOf x e)) s.capDoms
  let least := pickDom (fun e d => decide (energyOf x e < energyOf x d)) s.capDoms
  let s := if tlim < tj then s.setCapM d (max (s.cap d - 1) 19) else s
  let s := if decide (lim < x.pk) && decide (most = some d) then s.setCapM d (max (s.cap d - 1) 19) else s
  let ok := decide (tj + s.fld .THERM_CFG [] F.THERM_CFG_HYST < tlim) && decide (x.pk + 100 < lim)
  let n := if ok then min 10 (sget 0 s.capOk d + 1) else 0
  let s := { s with capOk := sput 0 s.capOk d n }
  if decide (n = 10) && decide (least = some d) then s.setCapM d (min (s.cap d + 1) 64) else s

/-- The m that the measured voltages of a domain's halves cover (R224); in Locked mode both halves count (R225). -/
def State.volts (s : State) (d : Nat) : Nat :=
  let c := fun h => s.fld .HALF_STAT [h] F.HALF_STAT_FCEIL
  if s.fld .SEAM_STAT [] F.SEAM_STAT_MODEA = 0 then min (c 0) (c 1) else least ((s.regionsIn d).map fun r => c (halfOf r))
/-- The halves whose supply a domain's raise asks of (R224, R225). -/
def State.supplies (s : State) (d : Nat) : List Nat :=
  [0, 1].filter fun h => decide (s.fld .SEAM_STAT [] F.SEAM_STAT_MODEA = 0) || (s.regionsIn d).any fun r => decide (halfOf r = h)
/-- The set-points of a domain's halves raised, ahead of its frequency (R224): by how much the spec does not say, a free value (log 79). -/
def State.raiseVolts (s : State) (d : Nat) : State :=
  let v := (Config.freeValue s.free).toNat % 1024
  (s.supplies d).foldl (fun s h =>
    s.wrAvs .mgmt (1 + h) (BitVec.ofNat 64 (max (s.fld .AVS_SET [1 + h] F.AVS_SET_MV) (min 850 v)))) s.useFree

/-- The staged FSET brought to the lower of DOM_REQ and cap (R399, R400); a raise that the measured voltage does not cover yet raises the
voltage first and waits for a later pass (R224). Nothing is staged while a commit is PENDING (R337). -/
def State.capStage (s : State) : State :=
  let want := fun d => min (s.fld .DOM_REQ [d] F.DOM_REQ_M) (s.cap d)
  let fset := fun d => s.fld .DOM_CFG [d] F.DOM_CFG_FSET
  let ds := s.capDoms.filter fun d => decide (want d ≠ fset d)
  if ds.isEmpty || s.commit.isSome then s
  else
    let wait := ds.filter fun d => decide (fset d < want d) && decide (s.volts d < want d)
    let now := ds.filter fun d => !wait.contains d
    let s := wait.foldl State.raiseVolts s
    if now.isEmpty then s else (now.foldl (fun s d => s.setFld .DOM_CFG [d] F.DOM_CFG_FSET (want d)) s).commitSoon

/-- The thermal emergency (R393, R400): at TEMERG with the cap at 19 the polder is killed and a case raised with ACTION 6. -/
def State.emergency (s : State) (x : PowerInputs) (d : Nat) : State :=
  let hot := x.tj.filter fun e => bit (s.apMask d) e.1 && decide (s.fld .THERM_CFG [] F.THERM_CFG_TEMERG ≤ e.2)
  match hot with
  | [] => s
  | e :: _ =>
    if decide (s.cap d = 19) && (decide (s.polderState d = 1) || decide (s.polderState d = 2)) && (sget none s.quarAt d).isNone then
      (s.polderEnd d true).caseEvent (0x4000 + e.1.val) s.wt 0 false false 6 0 [(0x4000 + e.1.val, 0)]
    else s

/-- CAPPING_PASS (R399, R400, R419): once per ms; on a frozen device it changes nothing. The same samples wear the regions (R403). -/
def execCappingPass (x : PowerInputs) (s : State) : Host.Outcome State Fault Refusal :=
  .next (if !s.terern || s.isFrozen then s
    else
      let s := s.wear x.tj
      let ds := s.capDoms
      let s := ds.foldl (fun s d => s.emergency x d) s
      (ds.foldl (fun s d => s.capStep x d) s).capStage)

/-! ### Guardbands (R402) -/

/-- GUARDBAND_CHECK (R402): once an hour: a half whose margin is short has GB raised by 5 mV, up to 60, and its set-point with it, that of
both halves in Locked mode (R225); at 60 mV FMAX falls by one step through a staged commit, with a case against the worst region. -/
def execGuardbandCheck (half : HalfIx) (short : Bool) (worst : RegionIx) (s : State) : Host.Outcome State Fault Refusal :=
  .next (if !s.terern || !short then s
    else
      let g := s.guardband half
      if g < 60 then
        let n := min 60 (g + 5)
        let both := decide (s.fld .SEAM_STAT [] F.SEAM_STAT_MODEA = 0) && decide (s.guardband (1 - half.val) < n)
        let v := sget 0 s.life 1 + (n - g) * 2 ^ (16 * half.val)
        let s := { s with life := sput 0 s.life 1 v, flash := { s.flash with life := sput 0 s.flash.life 1 v } }
        let up := fun (s : State) (h : Nat) =>
          s.wrAvs .mgmt (1 + h) (BitVec.ofNat 64 (s.fld .AVS_SET [1 + h] F.AVS_SET_MV + (n - g)))
        if both then up (up s 0) 1
        else if s.fld .SEAM_STAT [] F.SEAM_STAT_MODEA = 0 then s
        else up s half
      else if s.commit.isSome then s
      else
        let m := s.fld .HALF_CFG [half] F.HALF_CFG_FMAX
        let s := (s.setFld .HALF_CFG [half] F.HALF_CFG_FMAX (max 19 (m - 1))).commitSoon
        s.caseEvent (0x4000 + worst.val) s.wt 0 false false 0 0 [(0x4000 + worst.val, 0)])

end Sys2Proof.Machine
end

