-- ==== Sys2Proof/Machine/Csr.lean ====
section
/-! DEFINITION. Register access: what the registers of a tile and of the chip read as, CSRR and CSRW, register writes from outside, and the
read-out of a frozen device (R7 to R9, R11, R103, R284, R337, R350, R351, R404, R419, R420, R425 to R427). -/
namespace Sys2Proof.Machine

/-! ### What registers read as -/

/-- State code of a thread (Table 4-2). -/
def ThrSt.code : ThrSt → Nat
  | .halted => 0
  | .run => 1
  | .wait _ _ _ _ _ _ => 2
  | .gun _ _ _ _ => 3
  | .pause _ => 4
  | .stall _ _ _ => 5
  | .fault => 6

/-- THR_STAT of a thread (Table 4-21). -/
def Tile.thrStat (t : Tile) (n : Nat) : W64 :=
  let x := t.th n
  let w := F.THR_STAT_PC.set (F.THR_STAT_STATE.set 0 x.st.code) x.pc.toNat
  let w := F.THR_STAT_LOOPS.set w ((x.loops.map fun l => 2 ^ l.level).foldl (· + ·) 0)
  F.THR_STAT_FLIPA.set w (if n = 0 && t.flip.isSome then 1 else 0)

/-- QSTAT (Table 4-19). -/
def Tile.qstat (t : Tile) : W64 :=
  F.QSTAT_SDQ.set (F.QSTAT_XFQ.set (F.QSTAT_VXQ.set (F.QSTAT_MXQ.set 0 t.mxq.length) t.vxq.length) t.xfq.length) t.sendq.length

/-- MXE_STAT (Table 5-16). -/
def Tile.mxeStat (t : Tile) (fc : Nat) : W64 :=
  let m := t.mxe
  let p := fun k => sget Plane.init m.plane k
  let w := F.MXE_STAT_P1FMT.set (F.MXE_STAT_P1SP.set 0 (p 1).sp) (p 1).fmt
  let w := F.MXE_STAT_P0FMT.set (F.MXE_STAT_P0SP.set w (p 0).sp) (p 0).fmt
  let w := F.MXE_STAT_LBUSY.set w (if m.loads.any fun l => decide (fc < l.b + l.busy) then 1 else 0)
  F.MXE_STAT_FTR_OCC.set (F.MXE_STAT_SBUSY.set w (if m.rows.isEmpty then 0 else 1)) m.ftrStart

/-- VXE_STAT (Table 6-12). -/
def Tile.vxeStat (t : Tile) : W64 :=
  F.VXE_STAT_DIGO.set (F.VXE_STAT_BUSY.set 0 (if t.vxe.run.isEmpty && !(t.late.any fun l => decide (l.unit = 3)) then 0 else 1))
    (if t.vxe.digOpen then 1 else 0)

/-- EXP_STAT (R188): a LOADW that expands, FIN of the planes. -/
def Tile.expStat (t : Tile) : W64 :=
  let p := fun k => sget Plane.init t.mxe.plane k
  let busy := t.mxe.loads.any fun l => bit l.q.cmd.toNat 117
  let w := F.EXP_STAT_FIN0.set (F.EXP_STAT_FIN1.set 0 (if (p 1).fin then 1 else 0)) (if (p 0).fin then 1 else 0)
  F.EXP_STAT_EBUSY.set w (if busy then 1 else 0)

/-- What a register of a tile holds in fc `fc`, those that show other state included. -/
def Tile.view (t : Tile) (fc : Nat) (r : Reg) (i : List Nat) : W64 :=
  match r with
  | .CODE_CTL => F.CODE_CTL_ALL_HALTED.set (t.reg r i) (if t.allHalted then 1 else 0)
  | .QSTAT => t.qstat
  | .THR_STAT => t.thrStat (i.getD 0 0)
  | .MXE_STAT => t.mxeStat fc
  | .VXE_STAT => t.vxeStat
  | .EXP_STAT => t.expStat
  | _ => t.reg r i

/-- What a read of a tile register without side effect returns. -/
def Tile.csr (t : Tile) (fc : Nat) (r : Reg) (i : List Nat) : W64 := readFields r.info.flds (t.view fc r i)

/-- What a register of the chip holds, those that show other state included (R232, R257, R384, R398, R403, Tables 9-7, 10-14, 11-16, 16-9, 17-10). -/
def State.view (s : State) (r : Reg) (i : List Nat) : W64 :=
  let w := s.reg r i
  let k := i.getD 0 0
  match r with
  | .TB_NOW => BitVec.ofNat 64 s.ns
  | .CAL => BitVec.ofNat 64 (s.cal / 1792000000000)
  | .PORT_STAT =>
    F.PORT_STAT_DOWNS24.set w (min 255 ((s.lport k).downs.filter fun d => decide (s.wt < d + 24 * 3600000000000 * 256)).length)
  | .HEAT_CAND => s.heatCand
  | .DBG_STAT => F.DBG_STAT_SCOPE.set (F.DBG_STAT_TV.set w (if s.tokenValid k then 1 else 0)) (s.tokenScope k)
  | .MGMT_STAT => F.MGMT_STAT_QOCC.set w s.mgmt.length
  | .FUNNEL_STAT => F.FUNNEL_STAT_OPEN.set w s.cases.length
  | .LIFE_DATA => BitVec.ofNat 64 (sget 0 s.life (s.fld .LIFE_SEL [] F.LIFE_SEL_SEL))
  | _ => w

/-- What a read of a chip register without side effect returns: WO and RSVD fields read zero (R7). -/
def State.csr (s : State) (r : Reg) (i : List Nat) : W64 := readFields r.info.flds (s.view r i)

/-- What a read of the applied view of a register returns: its STG fields as applied, all others zero (R9, R426). -/
def State.appliedCsr (s : State) (r : Reg) (i : List Nat) : W64 :=
  keepFields (r.info.flds.filter fun f => decide (f.acc = .stg)) (sget (r.reset i) s.applied (r.loc i))

/-! ### CSRR, CSRW, EP_ADMIT (R103, R284) -/

/-- A read of a tile register: one of EP_ADMIT in the admission tile advances NEXT_B (R284). -/
def State.tileRead (s : State) (t : Nat) (r : Reg) (i : List Nat) : W64 × State :=
  if r = .EP_ADMIT then s.nextBatch t else ((s.tile t).csr (s.fc t) r i, s)

/-- A read of the calling tile's window: EP_ADMIT has its side effect; an offset that names no register reads zero and sets CFG_REJ. -/
def State.csrRead (s : State) (t : TileIx) (th : ThreadIx) (o : Nat) : W64 × State :=
  match Reg.tileAt o with
  | none => (0, s.modTile t fun x => x.cfgRej (.thread t th))
  | some (r, i) => s.tileRead t r i

/-- The window offset of a CSRR or CSRW. -/
def csrOff (x : Thread) (w : BitVec 26) : Nat := fADDR x w % 65536

/-- CSRR rd, rs1, imm. -/
def execCsrr (t : TileIx) (th : ThreadIx) (w : BitVec 26) (s : State) : Host.Outcome State Fault Refusal :=
  .next (s.issue t th fun s x =>
    let r := s.csrRead t th (csrOff x w)
    r.2.done t th (x.setS (fRD w) r.1))

/-- CSRW rs, rs1, imm: the source is the RD field; the write takes effect in the next fc (R102). -/
def execCsrw (t : TileIx) (th : ThreadIx) (w : BitVec 26) (s : State) : Host.Outcome State Fault Refusal :=
  .next (s.issue t th fun s x =>
    (s.done t th x).modTile t fun y => { y with csrw := y.csrw ++ [(s.fc t + 1, th.val, csrOff x w, x.sreg (fRD w))] })

/-- EP_ADMIT (R284): the CSRR whose offset is that of EP_ADMIT. -/
def execEpAdmit (t : TileIx) (th : ThreadIx) (w : BitVec 26) (s : State) : Host.Outcome State Fault Refusal :=
  .next (if csrOff ((s.tile t).th th) w = Reg.loc .EP_ADMIT [] then
      s.issue t th fun s x => let r := s.nextBatch t; r.2.done t th (x.setS (fRD w) r.1)
    else s)

/-! ### Writes to the registers of the chip -/

/-- Whether only the management core writes the register at an offset (R232, R299, R329, R338, R348, Tables 17-9 and 18-9). -/
def mgmtOnly (o : Nat) : Bool :=
  (decide (0x60000 ≤ o) && decide (o < 0x90000)) || (decide (0x110000 ≤ o) && decide (o < 0x140000)) ||
    [Reg.loc .CAL [], Reg.loc .COMMIT_AT [], Reg.loc .HOST_CFG []].contains o ||
    (List.range 8).any fun d => decide (o = Reg.loc .RCPT_UPD [d])

/-- Whether JTAG writes the register at an offset: the power and freeze blocks (Table 18-9). -/
def jtagWrites (o : Nat) : Bool := decide (0x120000 ≤ o) && decide (o < 0x140000)

/-- A write to THERM_CFG, PWR_CFG or DOM_REQ (R404): ignored with CFG_REJ where a field is out of range. -/
def State.wrRanged (r : Reg) (i : List Nat) (v : W64) (ok : Bool) (s : State) : State :=
  if ok then s.write r i v else s.setFld .FW_STAT [] F.FW_STAT_CFG_REJ 1

/-- A number within bounds. -/
def within (lo x hi : Nat) : Bool := decide (lo ≤ x) && decide (x ≤ hi)

/-- A write to a register by the access codes of its fields alone (R7, Table 0-2). -/
def State.wrPlain (src : Writer) (r : Reg) (i : List Nat) (v : W64) (s : State) : State :=
  if mgmtOnly (Reg.loc r i) && !isMgmt src && !(jtagWrites (Reg.loc r i) && decide (src = .jtag)) then s
  else s.write r i v

/-- A write to a chip register by a writer that may reach it: the conditions of its chapter, else the access codes of its fields. -/
def State.wrChip (src : Writer) (r : Reg) (i : List Nat) (v : W64) (s : State) : State :=
  let k := i.getD 0 0
  match r with
  | .TWR_CFG => s.wrTwrCfg k v
  | .TWR_INJ => s.wrTwrInj k v
  | .GUN_CHAN => s.wrGunChan src k v
  | .GUN_CTL => s.wrGunCtl k v
  | .GUN_VCFG => s.wrGunVcfg k v
  | .PORT_CTL => s.wrPortCtl src k v
  | .EP_ID => s.wrEpSlot src r i v
  | .EP_SH => s.wrEpSlot src r i v
  | .EP_DIG => s.wrEpSlot src r i v
  | .EP_CTL => s.wrEpCtl src k v
  | .HEAT_TBL => s.wrHeatTbl src k v
  | .HEAT_CTL => s.wrHeatCtl src v
  | .HEAT_QRY => s.wrHeatQry src v
  | .RCPT_CFG => s.wrRcptCfg src k v
  | .RCPT_PROG => s.wrRcptProg src k (i.getD 1 0) v
  | .POLDER_CTL => s.wrPolderCtl src k v
  | .COMMIT_CTL => s.wrCommitCtl src v
  | .REG_PWR => s.wrRegPwr src k v
  | .AVS_SET => s.wrAvs src k v
  | .FRZ_CTL => if isMgmt src || decide (src = .jtag) then s.wrFrzCtl v else s
  | .TB_SET => s.setReg r i v
  | .TB_CTL =>
    let s := s.wrPlain src r i v
    if F.TB_CTL_STEP.get v = 1 then s.tbStep else s
  | .CAL => if isMgmt src then { s with cal := v.toNat * 1792000000000 } else s
  | .UIO_TGT =>
    s.wrPlain src r i (if isMgmt src then v else F.UIO_TGT_EN.set v (s.fld .UIO_TGT i F.UIO_TGT_EN))
  | .POLICY => s.write r i v
  | .THERM_CFG =>
    s.wrRanged r i v (within 100 (F.THERM_CFG_TEMERG.get v) 120 && within 70 (F.THERM_CFG_TLIM.get v) 105 && within 1 (F.THERM_CFG_HYST.get v) 20)
  | .PWR_CFG => s.wrRanged r i v (within 1000 (F.PWR_CFG_PKG_LIM.get v) 4000)
  | .DOM_REQ => s.wrRanged r i v (within 19 (F.DOM_REQ_M.get v) 64)
  | _ => if (stgFields r).isEmpty then s.wrPlain src r i v else s.wrStaged src r i v

/-- Where a BAR0 offset lies (Table 15-2): a chip register, the applied view of one, a register of a mailbox, of a tile. -/
inductive Bar0 where
  | chip (r : Reg) (i : List Nat)
  | applied (r : Reg) (i : List Nat)
  | mbox (r : Reg) (m : Nat)
  | tile (t : Nat) (r : Reg) (i : List Nat)

/-- The register that an aligned access of a width (in bytes) at a BAR0 offset names (R11, R425 to R427). -/
def bar0At (off width : Nat) : Option Bar0 :=
  let fits := fun (r : Reg) => decide (width = if r.info.wide then 8 else 4)
  if off < 0x1000000 then (Reg.chipAt off).bind fun x => if fits x.1 then some (.chip x.1 x.2) else none
  else if off < 0x2000000 then (Reg.chipAt (off - 0x1000000)).bind fun x => if fits x.1 then some (.applied x.1 x.2) else none
  else if off < 0x2100000 then (Reg.chipAt off).bind fun x => if fits x.1 then some (.mbox x.1 (x.2.getD 0 0)) else none
  else if decide (0x4000000 ≤ off) && decide (off < 0x4000000 + 1152 * 0x10000) then
    (Reg.tileAt (off % 0x10000)).bind fun x => if fits x.1 then some (.tile ((off - 0x4000000) / 0x10000) x.1 x.2) else none
  else none

/-- A register of a mailbox written: by the requester it is bound to (R350, R358), or by the management core. -/
def State.wrMbox (src : Writer) (r : Reg) (m : Nat) (v : W64) (s : State) : State :=
  let plain := s.write r [m] v
  match src with
  | .host req =>
    if r = .MB_EVREL then s.wrEvrel req m (F.MB_EVREL_COUNT.get v)
    else if s.mboxOwn m req then plain
    else if (s.mbox m).bound then s.incSat .MB_CNT [m] F.MB_CNT_FOREIGN 1
    else s.urCount
  | .mgmt => plain
  | _ => s

/-- Whether a chip register write of a writer is performed: the host's operator session, the management core, JTAG in its blocks. -/
def State.chipWrite (s : State) (src : Writer) (r : Reg) (i : List Nat) (v : W64) : State :=
  match src with
  | .jtag => if jtagWrites (Reg.loc r i) then s.wrChip src r i v else s
  | _ => s.chipBy src (State.wrChip src r i v)

/-- A register write at a place of BAR0. -/
def State.wrBar0 (s : State) (src : Writer) (v : W64) : Option Bar0 → State
  | none =>
    match src with
    | .host _ => s.urCount
    | .mgmt => s.toMgmt false []
    | _ => s
  | some (.applied _ _) => s.chipBy src id
  | some (.chip r i) => s.chipWrite src r i v
  | some (.mbox r m) => s.wrMbox src r m v
  | some (.tile t r i) => s.tileBy src t fun s => s.wrTile src t r i v

/-- REGISTER_WRITE (R7, R11, R350, R351, R425 to R427): a write of `v` at a BAR0 offset. The host's reaches the device over a trained link
and is answered from stage READY on; the management core writes while it runs. -/
def execRegisterWrite (src : Writer) (off width : Nat) (v : W64) (s : State) : Host.Outcome State Fault Refusal :=
  .next (match src with
    | .host _ =>
      if !s.hostUp || decide (s.frzState = 3) then s
      else if !s.serving then s.urCount
      else s.wrBar0 src v (bar0At off width)
    | .mgmt => if decide (s.frzState = 3) || s.thermTrip then s else s.wrBar0 src v (bar0At off width)
    | _ => s.wrBar0 src v (bar0At off width))

/-! ### Register reads from outside

The table of commands has no row for a register read: it changes nothing but TB_FRAC, which a read of TB_NOW latches, NEXT_B where EP_ADMIT is
read, and the counts of what is refused. What a read delivers is said here once, for the statements about it (R7, R11, R350, R351, R426). -/

/-- Whether a register is one of CAPS. -/
def inCaps (r : Reg) (i : List Nat) : Bool := decide (Reg.loc r i < 0x10000)
/-- Whether a register is one of the timebase (Table 15-2). -/
def inTimebase (r : Reg) (i : List Nat) : Bool :=
  decide (Reg.loc .TB_NOW [] ≤ Reg.loc r i) && decide (Reg.loc r i < 0x50000)

/-- Whether a host requester may read a chip register: the operator all, a tenant CAPS and the timebase, any other CAPS and TB_NOW (R350,
Table 15-2); before stage READY nobody more than the last (R350). -/
def State.mayRead (s : State) (req : BitVec 16) (r : Reg) (i : List Nat) : Bool :=
  inCaps r i || decide (r = .TB_NOW) ||
    (s.serving && (s.isOperator req || ((s.session req).isSome && inTimebase r i)))

/-- A read of a chip register: one of TB_NOW latches TB_FRAC (Table 9-7). -/
def State.chipRead (s : State) (r : Reg) (i : List Nat) : W64 × State :=
  (s.csr r i, if r = .TB_NOW then s.setFld .TB_FRAC [] F.TB_FRAC_FRAC (s.wt % 256) else s)

/-- What an aligned read of a width at a BAR0 offset delivers to a host requester or to the management core; `none` where it is refused or
names no register (R11, R350, R351, R425 to R427). -/
def State.bar0Read (s : State) (src : Writer) (off width : Nat) : Option (W64 × State) :=
  match src, bar0At off width with
  | .host req, some (.chip r i) => if s.mayRead req r i then some (s.chipRead r i) else none
  | .host req, some (.applied r i) => if s.serving && s.isOperator req then some (s.appliedCsr r i, s) else none
  | .host req, some (.mbox r m) => if s.serving && s.mboxOwn m req then some (s.csr r [m], s) else none
  | .host req, some (.tile t r i) =>
    if s.serving && (s.isOperator req || s.ownsTile req t) && s.dikeTile 1168 (s.sender t).2 t then some (s.tileRead t r i) else none
  | .mgmt, some (.chip r i) => some (s.chipRead r i)
  | .mgmt, some (.applied r i) => some (s.appliedCsr r i, s)
  | .mgmt, some (.mbox r m) => some (s.csr r [m], s)
  | .mgmt, some (.tile t r i) => if s.dikeTile 1171 0 t then some (s.tileRead t r i) else none
  | _, _ => none

/-- The completion of a register read: the register's bytes in one piece, or an unsupported request of the host, an error status of the management
core (R11, R425); a tile's window of a frozen device answers the host with completer abort (R419). -/
def State.regRead (s : State) (src : Writer) (off width : Nat) : State :=
  match src, s.bar0Read src off width with
  | .host req, some (v, s') =>
    if s.isFrozen && decide (0x4000000 ≤ off) then (s.incSat .FRZ_STAT [] F.FRZ_STAT_HOSTREF 1).answer req 2 []
    else s'.answer req 0 (natLe width v.toNat)
  | .host req, none => s.urCount.answer req 1 []
  | .mgmt, some (v, s) => s.toMgmt true (natLe width v.toNat)
  | .mgmt, none => s.toMgmt false []
  | _, _ => s

/-! ### Read-out of a frozen device (R377, R420, Tables 14-3 and 16-7) -/

/-- The region that a read-out names. -/
def readRegion : ReadTarget → Nat
  | .pad t _ _ => regionOf t
  | .acc t _ => regionOf t
  | .reg t _ => regionOf t
  | .tower r _ _ => r
  | .sram _ _ => 0

/-- Lines or registers of a read-out. -/
def readCount : ReadTarget → Nat
  | .pad _ a n => (a % 64 + n + 63) / 64
  | .tower _ a n => (a % 64 + n + 63) / 64
  | _ => 1

/-- Whether a read-out names a tower. -/
def readTower : ReadTarget → Bool
  | .tower _ _ _ => true
  | _ => false

/-- A byte of a tower at an address, through its present layers; an uncorrectable line is not delivered (R67). -/
def State.twrByte (s : State) (r a : Nat) : Option Byte :=
  match s.physLine r (a / 64) with
  | some p => if (sget [] s.symErr (symKey r p)).length ≤ 1 then some (s.byte (twrAddr r (64 * p + a % 64))) else none
  | none => none

/-- The bytes of a read-out that are delivered: those that stand nowhere, or in a line or row whose check fails (R37, R39, R67), are not. In the
management SRAM the key area has been zeroed (R422); what else stands there is Terern's (log 80). -/
def State.readBytes (s : State) : ReadTarget → List (Option Byte)
  | .pad t a n => (List.range n).map fun k =>
    if decide (a + k < 0x400000) && s.lineOk t ((a + k) / 64) then some (s.byte (padAddr t (a + k))) else none
  | .acc t row =>
    if decide (row < 4096) && s.rowOk t row then (s.bytes (accAddr t row) 128).map some else List.replicate 128 none
  | .reg t o => match Reg.tileAt o with
    | some (r, i) => (natLe 8 ((s.tile t).csr (s.fc t) r i).toNat).map some
    | none => List.replicate 8 none
  | .tower r a n => (List.range n).map fun k => s.twrByte r (a + k)
  | .sram a n => (List.range n).map fun k =>
    if decide (Config.keyArea ≤ a + k) && decide (a + k < Config.keyArea + 0x10000) then some 0 else none

/-- The data of a read-out: what stands in the place of a byte that is not delivered is a free value (log 77). -/
def State.readData (s : State) (x : ReadTarget) : Bytes :=
  (s.readBytes x).zipIdx.map fun e => e.1.getD ((Config.freeValue (s.free + e.2)).truncate 8)

/-- Whether JTAG may read out, by life-cycle state (Table 16-7): `some false` under R377. -/
def jtagReads (lc : Nat) : Option Bool :=
  match lc with
  | 0 => some true
  | 2 => some false
  | 3 => some true
  | _ => none

/-- Whether a read-out names the management SRAM. -/
def readSram : ReadTarget → Bool
  | .sram _ _ => true
  | _ => false

/-- Whether a read-out is permitted, and the polder whose token it uses; the management SRAM is read by JTAG alone, in a full freeze, in MANUFACTURE
and RETURNED (R422). -/
def State.readPermit (s : State) (jtag : Bool) (x : ReadTarget) : Bool × Option Nat :=
  let all := jtag && decide (jtagReads s.lc = some true)
  if readSram x then (all && decide (s.frzState = 3), none)
  else if jtag && (jtagReads s.lc).isNone then (false, none)
  else match s.polderOf (readRegion x) with
    | none => (true, none)
    | some d =>
      if s.polderState d = 3 then (false, none)
      else if s.polderState d = 0 then (true, none)
      else if all || decide (s.lc ≠ 2) then (true, none)
      else if s.tokenScope d % 2 = 1 && !readTower x then (true, some d)
      else if decide (s.tokenScope d / 2 % 2 = 1) && readTower x then (true, some d)
      else (false, none)

/-- FREEZE_READOUT (R420): data under consent, else zeros; each line or register read under a token counts in READS. In a full freeze only
JTAG reads (R422). -/
def execFreezeReadout (jtag : Bool) (x : ReadTarget) (s : State) : Host.Outcome State Fault Refusal :=
  .next (if !s.isFrozen || (decide (s.frzState = 3) && !jtag) then s
    else
      let b := s.readData x
      let p := s.readPermit jtag x
      let s := match p.2 with
        | some d => s.incWrap .DBG_STAT [d] F.DBG_STAT_READS (readCount x)
        | none => s
      let s := { s with free := s.free + b.length }
      { s with out := s.out ++ [.readout (if p.1 then b else List.replicate b.length 0)] })

end Sys2Proof.Machine
end

