-- ==== Sys2Proof/Machine/Engine.lean ====
section
/-! DEFINITION. The engine rows: the begins, steps, reads, writes and completions of the MXE, the VXE and the XFE and the arrival of scheduled
units (chapters 05, 06, 08, 09; R124 to R130, R146, R174, R175, R209 to R214, R220). A row brings the clock to the fc its event falls in and does
the tile's work of that fc up to it; an event that has come about already leaves nothing to do. -/
namespace Sys2Proof.Machine

/-- An event of a tile, due as `due` says (none where there is none): the clock at its fc, and the tile's work of that fc up to and with phase
`n`. -/
def State.engine (t n : Nat) (due : State → Option Nat) (s : State) : State :=
  s.onClock t fun s => if (due s).isSome then (State.seek t due 65536 s).upTo (n + 1) t else s

/-- The least fc of a list. -/
def leastFc (l : List Nat) : Option Nat := l.foldl (fun m f => some (match m with | some k => min k f | none => f)) none

/-! ### MXE -/

/-- When the head of the MXE queue begins under a row of opcode `op`; an undefined opcode begins under any row (R119, R120). -/
def mxeBeginDue (t op : Nat) (s : State) : Option Nat :=
  let x := s.tile t
  match x.mxq with
  | q :: _ =>
    let o := q.w1 63 60
    if !x.mxe.stopped && (decide (o = op) || decide (o = 0) || decide (3 < o)) then some (x.mxe.beginFc q) else none
  | [] => none

/-- LOADW (R119, R120, R123, R124, R185). -/
def execLoadw (t : TileIx) (s : State) : Host.Outcome State Fault Refusal := .next (s.engine t 13 (mxeBeginDue t 1))
/-- STREAM (R119, R120, R125 to R129). -/
def execStream (t : TileIx) (s : State) : Host.Outcome State Fault Refusal := .next (s.engine t 13 (mxeBeginDue t 2))
/-- DRAIN (R130): it touches no pad line. -/
def execDrain (t : TileIx) (s : State) : Host.Outcome State Fault Refusal := .next (s.engine t 13 (mxeBeginDue t 3))

/-- When the stream unit issues its next row, or reads the lines of the one in issue. -/
def rowIssueDue (t : Nat) (s : State) : Option Nat :=
  match (s.tile t).mxe.streams.find? StreamRun.active with
  | some r => if r.need.isEmpty then some (r.issueFc r.issued) else leastFc (r.need.map Prod.fst)
  | none => none
/-- MXE_ROW_ISSUE (R121, R128, R129). -/
def execMxeRowIssue (t : TileIx) (s : State) : Host.Outcome State Fault Refusal := .next (s.engine t 15 (rowIssueDue t))

/-- When the oldest row in flight that has not written its accumulator rows writes them, or, `emit`, writes its output tile. -/
def rowWriteDue (t : Nat) (emit : Bool) (s : State) : Option Nat :=
  leastFc ((s.tile t).mxe.rows.filterMap fun w => if emit then (if w.stage = 3 then some (w.t + 14) else none)
    else if w.stage ≤ 2 then some (w.t + 13) else none)
/-- MXE_ROW_WRITE (R121, R131): the accumulator rows, and one fc later the output tile of a row that emits. -/
def execMxeRowWrite (t : TileIx) (s : State) : Host.Outcome State Fault Refusal :=
  .next ((s.engine t 12 (rowWriteDue t false)).engine t 12 (rowWriteDue t true))

/-- When the oldest LOADW, or the first STREAM or DRAIN whose rows are written, completes. -/
def mxeDoneDue (t : Nat) (load : Bool) (s : State) : Option Nat :=
  let m := (s.tile t).mxe
  if load then (m.loads.head?).map LoadRun.done
  else leastFc ((m.streams.filter fun r => decide (r.written = r.total)).map StreamRun.done)
/-- MXE_COMPLETE (R119, R124, R128, R188, R189). -/
def execMxeComplete (t : TileIx) (load : Bool) (s : State) : Host.Outcome State Fault Refusal := .next (s.engine t 12 (mxeDoneDue t load))

/-! ### VXE -/

/-- When the head of the VXE queue begins under a row of operation `op` with an IMM6 as `imm` says; an undefined operation begins under any
row (R146, R156). -/
def vxeBeginDue (t op : Nat) (imm : Nat → Bool) (s : State) : Option Nat :=
  let x := s.tile t
  match x.vxq with
  | q :: _ =>
    if !x.vxe.stopped && ((decide (q.vop = op) && imm q.imm6) || !vOps.contains q.vop) then some (x.vxe.beginFc q) else none
  | [] => none
/-- Any IMM6. -/
def anyImm (_ : Nat) : Bool := true

/-- VADD. -/
def execVadd (t : TileIx) (s : State) : Host.Outcome State Fault Refusal := .next (s.engine t 16 (vxeBeginDue t 0x01 anyImm))
/-- VSUB. -/
def execVsub (t : TileIx) (s : State) : Host.Outcome State Fault Refusal := .next (s.engine t 16 (vxeBeginDue t 0x02 anyImm))
/-- VMUL. -/
def execVmul (t : TileIx) (s : State) : Host.Outcome State Fault Refusal := .next (s.engine t 16 (vxeBeginDue t 0x03 anyImm))
/-- VFMA. -/
def execVfma (t : TileIx) (s : State) : Host.Outcome State Fault Refusal := .next (s.engine t 16 (vxeBeginDue t 0x04 anyImm))
/-- VMIN. -/
def execVmin (t : TileIx) (s : State) : Host.Outcome State Fault Refusal := .next (s.engine t 16 (vxeBeginDue t 0x05 anyImm))
/-- VMAX. -/
def execVmax (t : TileIx) (s : State) : Host.Outcome State Fault Refusal := .next (s.engine t 16 (vxeBeginDue t 0x06 anyImm))
/-- VABS. -/
def execVabs (t : TileIx) (s : State) : Host.Outcome State Fault Refusal := .next (s.engine t 16 (vxeBeginDue t 0x07 anyImm))
/-- VNEG. -/
def execVneg (t : TileIx) (s : State) : Host.Outcome State Fault Refusal := .next (s.engine t 16 (vxeBeginDue t 0x08 anyImm))
/-- VMOV. -/
def execVmov (t : TileIx) (s : State) : Host.Outcome State Fault Refusal := .next (s.engine t 16 (vxeBeginDue t 0x09 anyImm))
/-- VSPLAT. -/
def execVsplat (t : TileIx) (s : State) : Host.Outcome State Fault Refusal := .next (s.engine t 16 (vxeBeginDue t 0x0A anyImm))
/-- VCMP. -/
def execVcmp (t : TileIx) (s : State) : Host.Outcome State Fault Refusal := .next (s.engine t 16 (vxeBeginDue t 0x0B anyImm))
/-- VIADD. -/
def execViadd (t : TileIx) (s : State) : Host.Outcome State Fault Refusal := .next (s.engine t 16 (vxeBeginDue t 0x10 anyImm))
/-- VAND. -/
def execVand (t : TileIx) (s : State) : Host.Outcome State Fault Refusal := .next (s.engine t 16 (vxeBeginDue t 0x11 anyImm))
/-- VOR. -/
def execVor (t : TileIx) (s : State) : Host.Outcome State Fault Refusal := .next (s.engine t 16 (vxeBeginDue t 0x12 anyImm))
/-- VXOR. -/
def execVxor (t : TileIx) (s : State) : Host.Outcome State Fault Refusal := .next (s.engine t 16 (vxeBeginDue t 0x13 anyImm))
/-- VSHL. -/
def execVshl (t : TileIx) (s : State) : Host.Outcome State Fault Refusal := .next (s.engine t 16 (vxeBeginDue t 0x14 anyImm))
/-- VSHR. -/
def execVshr (t : TileIx) (s : State) : Host.Outcome State Fault Refusal := .next (s.engine t 16 (vxeBeginDue t 0x15 anyImm))
/-- VIOTA. -/
def execViota (t : TileIx) (s : State) : Host.Outcome State Fault Refusal := .next (s.engine t 16 (vxeBeginDue t 0x16 anyImm))
/-- VITOF. -/
def execVitof (t : TileIx) (s : State) : Host.Outcome State Fault Refusal := .next (s.engine t 16 (vxeBeginDue t 0x17 anyImm))
/-- VFTOI. -/
def execVftoi (t : TileIx) (s : State) : Host.Outcome State Fault Refusal := .next (s.engine t 16 (vxeBeginDue t 0x18 anyImm))
/-- PADD. -/
def execPadd (t : TileIx) (s : State) : Host.Outcome State Fault Refusal := .next (s.engine t 16 (vxeBeginDue t 0x20 anyImm))
/-- PMUL. -/
def execPmul (t : TileIx) (s : State) : Host.Outcome State Fault Refusal := .next (s.engine t 16 (vxeBeginDue t 0x21 anyImm))
/-- PFMA. -/
def execPfma (t : TileIx) (s : State) : Host.Outcome State Fault Refusal := .next (s.engine t 16 (vxeBeginDue t 0x22 anyImm))
/-- PPACK. -/
def execPpack (t : TileIx) (s : State) : Host.Outcome State Fault Refusal := .next (s.engine t 16 (vxeBeginDue t 0x23 anyImm))
/-- PUNPK. -/
def execPunpk (t : TileIx) (s : State) : Host.Outcome State Fault Refusal := .next (s.engine t 16 (vxeBeginDue t 0x24 anyImm))
/-- VTR. -/
def execVtr (t : TileIx) (s : State) : Host.Outcome State Fault Refusal := .next (s.engine t 16 (vxeBeginDue t 0x30 anyImm))
/-- VRED. -/
def execVred (t : TileIx) (s : State) : Host.Outcome State Fault Refusal := .next (s.engine t 16 (vxeBeginDue t 0x38 anyImm))
/-- VTOPK. -/
def execVtopk (t : TileIx) (s : State) : Host.Outcome State Fault Refusal := .next (s.engine t 16 (vxeBeginDue t 0x40 anyImm))
/-- VSLOT. -/
def execVslot (t : TileIx) (s : State) : Host.Outcome State Fault Refusal := .next (s.engine t 16 (vxeBeginDue t 0x41 anyImm))
/-- VSLOTCLR. -/
def execVslotclr (t : TileIx) (s : State) : Host.Outcome State Fault Refusal := .next (s.engine t 16 (vxeBeginDue t 0x42 anyImm))
/-- VSLOTRD. -/
def execVslotrd (t : TileIx) (s : State) : Host.Outcome State Fault Refusal := .next (s.engine t 16 (vxeBeginDue t 0x43 anyImm))
/-- VRUPD. -/
def execVrupd (t : TileIx) (s : State) : Host.Outcome State Fault Refusal := .next (s.engine t 16 (vxeBeginDue t 0x48 anyImm))
/-- VDIG open: IMM6 other than 1. -/
def execVdigOpen (t : TileIx) (s : State) : Host.Outcome State Fault Refusal := .next (s.engine t 16 (vxeBeginDue t 0x50 (fun m => decide (m ≠ 1))))
/-- VDIG close: IMM6 1. -/
def execVdigClose (t : TileIx) (s : State) : Host.Outcome State Fault Refusal := .next (s.engine t 16 (vxeBeginDue t 0x50 (fun m => decide (m = 1))))

/-- When the next step of the VXE issues. -/
def vxeStepDue (t : Nat) (s : State) : Option Nat := ((s.tile t).vxe.run.find? VxeRun.more).map VxeRun.stepFc
/-- VXE_STEP (R143 to R156). -/
def execVxeStep (t : TileIx) (s : State) : Host.Outcome State Fault Refusal := .next (s.engine t 18 (vxeStepDue t))

/-- When the next command of the VXE whose steps have all issued completes. -/
def vxeDoneDue (t : Nat) (s : State) : Option Nat := leastFc (((s.tile t).vxe.run.filter fun r => !r.more).map VxeRun.done)
/-- VXE_COMPLETE (R146). -/
def execVxeComplete (t : TileIx) (s : State) : Host.Outcome State Fault Refusal := .next (s.engine t 19 (vxeDoneDue t))

/-! ### XFE -/

/-- When the head of the XFE queue begins under a row of opcode `op`; an undefined opcode begins under any row (R209, R210). -/
def xfeBeginDue (t op : Nat) (s : State) : Option Nat :=
  let x := s.tile t
  match x.xfq with
  | q :: _ =>
    if !x.xfe.stopped && (decide (q.xop = op) || decide (q.xop = 0) || decide (7 < q.xop)) then some (x.xfeBeginFc t q) else none
  | [] => none

/-- TREAD. -/
def execTread (t : TileIx) (s : State) : Host.Outcome State Fault Refusal := .next (s.engine t 0 (xfeBeginDue t 1))
/-- TWRITE. -/
def execTwrite (t : TileIx) (s : State) : Host.Outcome State Fault Refusal := .next (s.engine t 0 (xfeBeginDue t 2))
/-- HSEND. -/
def execHsend (t : TileIx) (s : State) : Host.Outcome State Fault Refusal := .next (s.engine t 0 (xfeBeginDue t 3))
/-- HTAKE. -/
def execHtake (t : TileIx) (s : State) : Host.Outcome State Fault Refusal := .next (s.engine t 0 (xfeBeginDue t 4))
/-- AREAD. -/
def execAread (t : TileIx) (s : State) : Host.Outcome State Fault Refusal := .next (s.engine t 0 (xfeBeginDue t 5))
/-- AWRITE. -/
def execAwrite (t : TileIx) (s : State) : Host.Outcome State Fault Refusal := .next (s.engine t 0 (xfeBeginDue t 6))
/-- ICOPY. -/
def execIcopy (t : TileIx) (s : State) : Host.Outcome State Fault Refusal := .next (s.engine t 0 (xfeBeginDue t 7))

/-- The phase in which a channel makes its step. -/
def stepPhase : XChan → Nat
  | .tower => 6 | .acc => 7 | .copy => 8 | .sN => 4 | .sE => 4 | .sS => 4 | .sW => 4 | .kN => 1 | .kE => 1 | .kS => 1 | .kW => 1
/-- When a channel makes its next step. -/
def xfeStepDue (t : Nat) (c : XChan) (s : State) : Option Nat := ((s.tile t).xfe.run.find? (XfeRun.next c)).map XfeRun.due
/-- XFE_STEP (R175, R210 to R214): on a tower port after the ports of lower tile index in its region (R64). -/
def execXfeStep (t : TileIx) (c : XChan) (s : State) : Host.Outcome State Fault Refusal :=
  .next (s.onClock t fun s =>
    if (xfeStepDue t c s).isSome then
      let s := State.seek t (xfeStepDue t c) 65536 s
      let s := if c = .tower then ((tilesOf (regionOf t)).filter fun u => u < t.val).foldl (fun s u => s.upTo 7 u) s else s
      s.upTo (stepPhase c + 1) t
    else s)

/-- When the oldest command of a channel completes: all its steps done, the last of its late effects landed. -/
def xfeDoneDue (t : Nat) (c : XChan) (s : State) : Option Nat :=
  let x := s.tile t
  match x.xfe.run.find? fun r => decide (r.ch = c) with
  | some r =>
    if r.next c then none
    else some ((x.late.filter fun l => decide (l.q = r.q) && decide (l.unit ≠ 3)).foldl (fun m l => max m l.due) r.done)
  | none => none
/-- XFE_COMPLETE (R209, Table 9-4). -/
def execXfeComplete (t : TileIx) (c : XChan) (s : State) : Host.Outcome State Fault Refusal := .next (s.engine t 10 (xfeDoneDue t c))

/-! ### Arrivals -/

/-- When the next unit reaches a tile on an incoming link. -/
def hopDue (t d : Nat) (s : State) : Option Nat :=
  leastFc ((s.hops.filter fun h => decide (h.tile = t) && decide (h.dir = d)).map HopFly.due)

/-- The units due next on an incoming link of a tile, held back by a clock fault of their sender's region. -/
def State.holdBack (s : State) (t d : Nat) : State :=
  { s with hops := s.hops.map fun h => if decide (h.tile = t) && decide (h.dir = d) && decide (hopDue t d s = some h.due) then { h with lag := true } else h }

/-- HOP_ARRIVAL (R169, R174, R175, R220): the unit due next on a link, in its fc after the takes of that fc; `late`: a clock fault, a cause outside
the model, makes its sender lag beyond the tolerance (log 81). -/
def execHopArrival (t : TileIx) (dir : Dir) (late : Bool) (s : State) : Host.Outcome State Fault Refusal :=
  .next ((if late then s.holdBack t (dirNo dir) else s).engine t 2 (hopDue t (dirNo dir)))

end Sys2Proof.Machine
end

