-- ==== Sys2Proof/Machine/Dispatch.lean ====
section
/-! DEFINITION. The dispatch: one arm per command, each a direct call of the command's meaning. -/
namespace Sys2Proof.Machine

/-- A command's effect on everything but the queue. -/
def exec (i : Instr) (s : State) : Host.Outcome State Fault Refusal :=
  match i with
  | .coldReset vaonLost => Sys2Proof.Machine.execColdReset vaonLost s
  | .warmReset => Sys2Proof.Machine.execWarmReset s
  | .pwrOkAonRise => Sys2Proof.Machine.execPwrOkAonRise s
  | .railOrderViolation rail => Sys2Proof.Machine.execRailOrderViolation rail s
  | .railLoss rail => Sys2Proof.Machine.execRailLoss rail s
  | .refclkLockLoss => Sys2Proof.Machine.execRefclkLockLoss s
  | .xtalStop => Sys2Proof.Machine.execXtalStop s
  | .thermalTrip => Sys2Proof.Machine.execThermalTrip s
  | .registerWrite src off width v => Sys2Proof.Machine.execRegisterWrite src off width v s
  | .padPhaseWrite src t v => Sys2Proof.Machine.execPadPhaseWrite src t v s
  | .servicePortAccess t addr width wr => Sys2Proof.Machine.execServicePortAccess t addr width wr s
  | .ringAppend t payload => Sys2Proof.Machine.execRingAppend t payload s
  | .thrBndWrite src t th v => Sys2Proof.Machine.execThrBndWrite src t th v s
  | .ringCfgWrite src t n v => Sys2Proof.Machine.execRingCfgWrite src t n v s
  | .ringHrel src t n v => Sys2Proof.Machine.execRingHrel src t n v s
  | .codeBankWrite src t bankB v => Sys2Proof.Machine.execCodeBankWrite src t bankB v s
  | .codeCtlWrite src t v => Sys2Proof.Machine.execCodeCtlWrite src t v s
  | .twrCfgWrite src r v => Sys2Proof.Machine.execTwrCfgWrite src r v s
  | .twrInjWrite src r v => Sys2Proof.Machine.execTwrInjWrite src r v s
  | .scrubLine r => Sys2Proof.Machine.execScrubLine r s
  | .scrubWriteback r => Sys2Proof.Machine.execScrubWriteback r s
  | .fixQueueWriteback r => Sys2Proof.Machine.execFixQueueWriteback r s
  | .aluAdd t th w => Sys2Proof.Machine.execAluAdd t th w s
  | .aluSub t th w => Sys2Proof.Machine.execAluSub t th w s
  | .aluAnd t th w => Sys2Proof.Machine.execAluAnd t th w s
  | .aluOr t th w => Sys2Proof.Machine.execAluOr t th w s
  | .aluXor t th w => Sys2Proof.Machine.execAluXor t th w s
  | .aluSll t th w => Sys2Proof.Machine.execAluSll t th w s
  | .aluSrl t th w => Sys2Proof.Machine.execAluSrl t th w s
  | .aluSra t th w => Sys2Proof.Machine.execAluSra t th w s
  | .aluMul t th w => Sys2Proof.Machine.execAluMul t th w s
  | .aluMulhu t th w => Sys2Proof.Machine.execAluMulhu t th w s
  | .aluMin t th w => Sys2Proof.Machine.execAluMin t th w s
  | .aluMax t th w => Sys2Proof.Machine.execAluMax t th w s
  | .aluMinu t th w => Sys2Proof.Machine.execAluMinu t th w s
  | .aluMaxu t th w => Sys2Proof.Machine.execAluMaxu t th w s
  | .aluSel t th w => Sys2Proof.Machine.execAluSel t th w s
  | .aluAgl t th w => Sys2Proof.Machine.execAluAgl t th w s
  | .addi t th w => Sys2Proof.Machine.execAddi t th w s
  | .andi t th w => Sys2Proof.Machine.execAndi t th w s
  | .ori t th w => Sys2Proof.Machine.execOri t th w s
  | .xori t th w => Sys2Proof.Machine.execXori t th w s
  | .slli t th w => Sys2Proof.Machine.execSlli t th w s
  | .srli t th w => Sys2Proof.Machine.execSrli t th w s
  | .srai t th w => Sys2Proof.Machine.execSrai t th w s
  | .insi t th w => Sys2Proof.Machine.execInsi t th w s
  | .cmp t th w => Sys2Proof.Machine.execCmp t th w s
  | .cmpi t th w => Sys2Proof.Machine.execCmpi t th w s
  | .br t th w => Sys2Proof.Machine.execBr t th w s
  | .jal t th w => Sys2Proof.Machine.execJal t th w s
  | .jr t th w => Sys2Proof.Machine.execJr t th w s
  | .ld t th w => Sys2Proof.Machine.execLd t th w s
  | .lw t th w => Sys2Proof.Machine.execLw t th w s
  | .lb t th w => Sys2Proof.Machine.execLb t th w s
  | .st t th w => Sys2Proof.Machine.execSt t th w s
  | .sw t th w => Sys2Proof.Machine.execSw t th w s
  | .sb t th w => Sys2Proof.Machine.execSb t th w s
  | .rpop t th w => Sys2Proof.Machine.execRpop t th w s
  | .rpush t th w => Sys2Proof.Machine.execRpush t th w s
  | .rptr t th w => Sys2Proof.Machine.execRptr t th w s
  | .push t th w => Sys2Proof.Machine.execPush t th w s
  | .stallResume t th => Sys2Proof.Machine.execStallResume t th s
  | .send t th w => Sys2Proof.Machine.execSend t th w s
  | .sendDrain t => Sys2Proof.Machine.execSendDrain t s
  | .remoteGaugeAdd g => Sys2Proof.Machine.execRemoteGaugeAdd g s
  | .gadd t th w => Sys2Proof.Machine.execGadd t th w s
  | .gset t th w => Sys2Proof.Machine.execGset t th w s
  | .gwait t th w => Sys2Proof.Machine.execGwait t th w s
  | .gwaitWake t th => Sys2Proof.Machine.execGwaitWake t th s
  | .gaugeTimeout t th => Sys2Proof.Machine.execGaugeTimeout t th s
  | .grd t th w => Sys2Proof.Machine.execGrd t th w s
  | .gaugeWrite src t n v => Sys2Proof.Machine.execGaugeWrite src t n v s
  | .garm t th w => Sys2Proof.Machine.execGarm t th w s
  | .armReport t ch => Sys2Proof.Machine.execArmReport t ch s
  | .gawait t th w => Sys2Proof.Machine.execGawait t th w s
  | .gunResume t th => Sys2Proof.Machine.execGunResume t th s
  | .tspawn t th w => Sys2Proof.Machine.execTspawn t th w s
  | .thalt t th w => Sys2Proof.Machine.execThalt t th w s
  | .pause t th w => Sys2Proof.Machine.execPause t th w s
  | .pauseEnd t th => Sys2Proof.Machine.execPauseEnd t th s
  | .flip t th w => Sys2Proof.Machine.execFlip t th w s
  | .flipTakeEffect t => Sys2Proof.Machine.execFlipTakeEffect t s
  | .csrr t th w => Sys2Proof.Machine.execCsrr t th w s
  | .csrw t th w => Sys2Proof.Machine.execCsrw t th w s
  | .setlc t th w => Sys2Proof.Machine.execSetlc t th w s
  | .loop t th w => Sys2Proof.Machine.execLoop t th w s
  | .instructionFetch t th line => Sys2Proof.Machine.execInstructionFetch t th line s
  | .thrHalt src t th => Sys2Proof.Machine.execThrHalt src t th s
  | .thrStart src t th => Sys2Proof.Machine.execThrStart src t th s
  | .loadw t => Sys2Proof.Machine.execLoadw t s
  | .stream t => Sys2Proof.Machine.execStream t s
  | .drain t => Sys2Proof.Machine.execDrain t s
  | .mxeRowIssue t => Sys2Proof.Machine.execMxeRowIssue t s
  | .mxeRowWrite t => Sys2Proof.Machine.execMxeRowWrite t s
  | .mxeComplete t load => Sys2Proof.Machine.execMxeComplete t load s
  | .vadd t => Sys2Proof.Machine.execVadd t s
  | .vsub t => Sys2Proof.Machine.execVsub t s
  | .vmul t => Sys2Proof.Machine.execVmul t s
  | .vfma t => Sys2Proof.Machine.execVfma t s
  | .vmin t => Sys2Proof.Machine.execVmin t s
  | .vmax t => Sys2Proof.Machine.execVmax t s
  | .vabs t => Sys2Proof.Machine.execVabs t s
  | .vneg t => Sys2Proof.Machine.execVneg t s
  | .vmov t => Sys2Proof.Machine.execVmov t s
  | .vsplat t => Sys2Proof.Machine.execVsplat t s
  | .vcmp t => Sys2Proof.Machine.execVcmp t s
  | .viadd t => Sys2Proof.Machine.execViadd t s
  | .vand t => Sys2Proof.Machine.execVand t s
  | .vor t => Sys2Proof.Machine.execVor t s
  | .vxor t => Sys2Proof.Machine.execVxor t s
  | .vshl t => Sys2Proof.Machine.execVshl t s
  | .vshr t => Sys2Proof.Machine.execVshr t s
  | .viota t => Sys2Proof.Machine.execViota t s
  | .vitof t => Sys2Proof.Machine.execVitof t s
  | .vftoi t => Sys2Proof.Machine.execVftoi t s
  | .padd t => Sys2Proof.Machine.execPadd t s
  | .pmul t => Sys2Proof.Machine.execPmul t s
  | .pfma t => Sys2Proof.Machine.execPfma t s
  | .ppack t => Sys2Proof.Machine.execPpack t s
  | .punpk t => Sys2Proof.Machine.execPunpk t s
  | .vtr t => Sys2Proof.Machine.execVtr t s
  | .vred t => Sys2Proof.Machine.execVred t s
  | .vtopk t => Sys2Proof.Machine.execVtopk t s
  | .vslot t => Sys2Proof.Machine.execVslot t s
  | .vslotclr t => Sys2Proof.Machine.execVslotclr t s
  | .vslotrd t => Sys2Proof.Machine.execVslotrd t s
  | .vrupd t => Sys2Proof.Machine.execVrupd t s
  | .vdigOpen t => Sys2Proof.Machine.execVdigOpen t s
  | .vdigClose t => Sys2Proof.Machine.execVdigClose t s
  | .vxeStep t => Sys2Proof.Machine.execVxeStep t s
  | .vxeComplete t => Sys2Proof.Machine.execVxeComplete t s
  | .tread t => Sys2Proof.Machine.execTread t s
  | .twrite t => Sys2Proof.Machine.execTwrite t s
  | .hsend t => Sys2Proof.Machine.execHsend t s
  | .htake t => Sys2Proof.Machine.execHtake t s
  | .aread t => Sys2Proof.Machine.execAread t s
  | .awrite t => Sys2Proof.Machine.execAwrite t s
  | .icopy t => Sys2Proof.Machine.execIcopy t s
  | .xfeComplete t c => Sys2Proof.Machine.execXfeComplete t c s
  | .hopArrival t dir late => Sys2Proof.Machine.execHopArrival t dir late s
  | .readyReport rep => Sys2Proof.Machine.execReadyReport rep s
  | .fireMessage t f => Sys2Proof.Machine.execFireMessage t f s
  | .fireInstant ch => Sys2Proof.Machine.execFireInstant ch s
  | .gunTimeout ch => Sys2Proof.Machine.execGunTimeout ch s
  | .untimedMessage q => Sys2Proof.Machine.execUntimedMessage q s
  | .abortRequest q => Sys2Proof.Machine.execAbortRequest q s
  | .abortMessage t ch => Sys2Proof.Machine.execAbortMessage t ch s
  | .abortInstant ch => Sys2Proof.Machine.execAbortInstant ch s
  | .gunChanWrite src ch v => Sys2Proof.Machine.execGunChanWrite src ch v s
  | .gunRecount ch => Sys2Proof.Machine.execGunRecount ch s
  | .gunGo ch => Sys2Proof.Machine.execGunGo ch s
  | .gunAbort ch => Sys2Proof.Machine.execGunAbort ch s
  | .restore src t => Sys2Proof.Machine.execRestore src t s
  | .gunVcfgWrite src ch v => Sys2Proof.Machine.execGunVcfgWrite src ch v s
  | .droopStretch r two => Sys2Proof.Machine.execDroopStretch r two s
  | .stretchWave r w => Sys2Proof.Machine.execStretchWave r w s
  | .monitorRequest r m => Sys2Proof.Machine.execMonitorRequest r m s
  | .monitorWithdraw r m => Sys2Proof.Machine.execMonitorWithdraw r m s
  | .freqSwitch d => Sys2Proof.Machine.execFreqSwitch d s
  | .avsReadback a mv amps ceil error => Sys2Proof.Machine.execAvsReadback a mv amps ceil error s
  | .avsSet src a v => Sys2Proof.Machine.execAvsSet src a v s
  | .pacePulse => Sys2Proof.Machine.execPacePulse s
  | .ppsIn => Sys2Proof.Machine.execPpsIn s
  | .tbStep src => Sys2Proof.Machine.execTbStep src s
  | .timebaseExchange => Sys2Proof.Machine.execTimebaseExchange s
  | .timeMessage p rx => Sys2Proof.Machine.execTimeMessage p rx s
  | .flitSlot p => Sys2Proof.Machine.execFlitSlot p s
  | .dataFlit p raw fec => Sys2Proof.Machine.execDataFlit p raw fec s
  | .ctrlFlit p raw => Sys2Proof.Machine.execCtrlFlit p raw s
  | .ctrlDown p => Sys2Proof.Machine.execCtrlDown p s
  | .ctrlRetrain p => Sys2Proof.Machine.execCtrlRetrain p s
  | .ctrlWidth p lanes => Sys2Proof.Machine.execCtrlWidth p lanes s
  | .idleFlit p => Sys2Proof.Machine.execIdleFlit p s
  | .holdFlit p frzno follow => Sys2Proof.Machine.execHoldFlit p frzno follow s
  | .ackTimer p => Sys2Proof.Machine.execAckTimer p s
  | .replayTimeout p sp => Sys2Proof.Machine.execReplayTimeout p sp s
  | .arqRepeat p => Sys2Proof.Machine.execArqRepeat p s
  | .windowEnd p => Sys2Proof.Machine.execWindowEnd p s
  | .retrainAttempt p both => Sys2Proof.Machine.execRetrainAttempt p both s
  | .fastRetrainFail p => Sys2Proof.Machine.execFastRetrainFail p s
  | .trainingComplete p x => Sys2Proof.Machine.execTrainingComplete p x s
  | .attemptTimeout p => Sys2Proof.Machine.execAttemptTimeout p s
  | .drainComplete p => Sys2Proof.Machine.execDrainComplete p s
  | .portCtlRetrain src p => Sys2Proof.Machine.execPortCtlRetrain src p s
  | .portCtlDown src p => Sys2Proof.Machine.execPortCtlDown src p s
  | .graceExpiry n => Sys2Proof.Machine.execGraceExpiry n s
  | .sring h => Sys2Proof.Machine.execSring h s
  | .sringSend n cls => Sys2Proof.Machine.execSringSend n cls s
  | .ssluice h => Sys2Proof.Machine.execSsluice h s
  | .sslot h => Sys2Proof.Machine.execSslot h s
  | .rgaddRequest h => Sys2Proof.Machine.execRgaddRequest h s
  | .grantRequest h => Sys2Proof.Machine.execGrantRequest h s
  | .tset h => Sys2Proof.Machine.execTset h s
  | .tclr h => Sys2Proof.Machine.execTclr h s
  | .bopen h => Sys2Proof.Machine.execBopen h s
  | .bdataRequest h => Sys2Proof.Machine.execBdataRequest h s
  | .bclose h => Sys2Proof.Machine.execBclose h s
  | .bfetch => Sys2Proof.Machine.execBfetch s
  | .ringMessage p cls => Sys2Proof.Machine.execRingMessage p cls s
  | .sluiceMessage p cls => Sys2Proof.Machine.execSluiceMessage p cls s
  | .slotMessage p cls => Sys2Proof.Machine.execSlotMessage p cls s
  | .orderRingResume h e => Sys2Proof.Machine.execOrderRingResume h e s
  | .rgaddMessage p cls => Sys2Proof.Machine.execRgaddMessage p cls s
  | .grantMessage p cls => Sys2Proof.Machine.execGrantMessage p cls s
  | .cmpl p cls => Sys2Proof.Machine.execCmpl p cls s
  | .bhdr p cls => Sys2Proof.Machine.execBhdr p cls s
  | .bdataMessage p cls => Sys2Proof.Machine.execBdataMessage p cls s
  | .chunkDeliver h c => Sys2Proof.Machine.execChunkDeliver h c s
  | .bend p cls => Sys2Proof.Machine.execBend p cls s
  | .babort p cls => Sys2Proof.Machine.execBabort p cls s
  | .batonContextTimeout h c => Sys2Proof.Machine.execBatonContextTimeout h c s
  | .sread => Sys2Proof.Machine.execSread s
  | .swrite => Sys2Proof.Machine.execSwrite s
  | .uioIssue => Sys2Proof.Machine.execUioIssue s
  | .uioCompletion id ok data => Sys2Proof.Machine.execUioCompletion id ok data s
  | .uioTimeout id => Sys2Proof.Machine.execUioTimeout id s
  | .epochOpen d sl => Sys2Proof.Machine.execEpochOpen d sl s
  | .epochSwitch d sl arg => Sys2Proof.Machine.execEpochSwitch d sl arg s
  | .admissionSwitch d => Sys2Proof.Machine.execAdmissionSwitch d s
  | .epochAbandon d sl => Sys2Proof.Machine.execEpochAbandon d sl s
  | .epAdmit t th w => Sys2Proof.Machine.execEpAdmit t th w s
  | .epDone t b => Sys2Proof.Machine.execEpDone t b s
  | .heatIn t v => Sys2Proof.Machine.execHeatIn t v s
  | .heatTblWrite src n v => Sys2Proof.Machine.execHeatTblWrite src n v s
  | .heatTake src v => Sys2Proof.Machine.execHeatTake src v s
  | .heatClear src v => Sys2Proof.Machine.execHeatClear src v s
  | .heatHalve src v => Sys2Proof.Machine.execHeatHalve src v s
  | .heatQry src v => Sys2Proof.Machine.execHeatQry src v s
  | .updatePoint => Sys2Proof.Machine.execUpdatePoint s
  | .retierPass d => Sys2Proof.Machine.execRetierPass d s
  | .orderDone => Sys2Proof.Machine.execOrderDone s
  | .suspect => Sys2Proof.Machine.execSuspect s
  | .receipt => Sys2Proof.Machine.execReceipt s
  | .receiptForm => Sys2Proof.Machine.execReceiptForm s
  | .seal d => Sys2Proof.Machine.execSeal d s
  | .rcptCfgWrite src d v => Sys2Proof.Machine.execRcptCfgWrite src d v s
  | .polderStart d => Sys2Proof.Machine.execPolderStart d s
  | .polderKill d => Sys2Proof.Machine.execPolderKill d s
  | .polderFinish d => Sys2Proof.Machine.execPolderFinish d s
  | .quarantineInstant d => Sys2Proof.Machine.execQuarantineInstant d s
  | .wipeStart d => Sys2Proof.Machine.execWipeStart d s
  | .wipeComplete d failed => Sys2Proof.Machine.execWipeComplete d failed s
  | .commitGo v => Sys2Proof.Machine.execCommitGo v s
  | .commitAbort => Sys2Proof.Machine.execCommitAbort s
  | .commitApply => Sys2Proof.Machine.execCommitApply s
  | .powerMonitorSample uj rest => Sys2Proof.Machine.execPowerMonitorSample uj rest s
  | .meterStatement => Sys2Proof.Machine.execMeterStatement s
  | .hourlyPersist => Sys2Proof.Machine.execHourlyPersist s
  | .bar2Read a len => Sys2Proof.Machine.execBar2Read a len s
  | .bar2Write a data => Sys2Proof.Machine.execBar2Write a data s
  | .mailboxWrite a data => Sys2Proof.Machine.execMailboxWrite a data s
  | .mbEvrel req m n => Sys2Proof.Machine.execMbEvrel req m n s
  | .sesOpen m => Sys2Proof.Machine.execSesOpen m s
  | .sesProve m => Sys2Proof.Machine.execSesProve m s
  | .sesClose m => Sys2Proof.Machine.execSesClose m s
  | .sesSetUtc m => Sys2Proof.Machine.execSesSetUtc m s
  | .sesStage m => Sys2Proof.Machine.execSesStage m s
  | .sesCommit m => Sys2Proof.Machine.execSesCommit m s
  | .sesPolder m => Sys2Proof.Machine.execSesPolder m s
  | .sesProgram m => Sys2Proof.Machine.execSesProgram m s
  | .sesEpoch m => Sys2Proof.Machine.execSesEpoch m s
  | .sesRetier m => Sys2Proof.Machine.execSesRetier m s
  | .sesAttest m => Sys2Proof.Machine.execSesAttest m s
  | .perstN => Sys2Proof.Machine.execPerstN s
  | .hostLinkDown => Sys2Proof.Machine.execHostLinkDown s
  | .getCerts obj => Sys2Proof.Machine.execGetCerts obj s
  | .doeAttest obj => Sys2Proof.Machine.execDoeAttest obj s
  | .regTenant obj => Sys2Proof.Machine.execRegTenant obj s
  | .loadKey obj => Sys2Proof.Machine.execLoadKey obj s
  | .eraseKey obj => Sys2Proof.Machine.execEraseKey obj s
  | .debugToken obj => Sys2Proof.Machine.execDebugToken obj s
  | .lcRequest obj => Sys2Proof.Machine.execLcRequest obj s
  | .advanceSvn obj => Sys2Proof.Machine.execAdvanceSvn obj s
  | .freezeReadout jtag x => Sys2Proof.Machine.execFreezeReadout jtag x s
  | .watchdogExpiry => Sys2Proof.Machine.execWatchdogExpiry s
  | .stageRom => Sys2Proof.Machine.execStageRom s
  | .stageSupply => Sys2Proof.Machine.execStageSupply s
  | .stageClock => Sys2Proof.Machine.execStageClock s
  | .stageWipe => Sys2Proof.Machine.execStageWipe s
  | .stageBist x => Sys2Proof.Machine.execStageBist x s
  | .stageRepair retest => Sys2Proof.Machine.execStageRepair retest s
  | .stageKeys => Sys2Proof.Machine.execStageKeys s
  | .stageHost => Sys2Proof.Machine.execStageHost s
  | .stageReady => Sys2Proof.Machine.execStageReady s
  | .stageLinks => Sys2Proof.Machine.execStageLinks s
  | .imageWrite slotB image => Sys2Proof.Machine.execImageWrite slotB image s
  | .listClear p => Sys2Proof.Machine.execListClear p s
  | .powerDown => Sys2Proof.Machine.execPowerDown s
  | .faultReport rep => Sys2Proof.Machine.execFaultReport rep s
  | .summary k => Sys2Proof.Machine.execSummary k s
  | .caseClose => Sys2Proof.Machine.execCaseClose s
  | .cappingPass x => Sys2Proof.Machine.execCappingPass x s
  | .guardbandCheck half short worst => Sys2Proof.Machine.execGuardbandCheck half short worst s
  | .regionWake src r => Sys2Proof.Machine.execRegionWake src r s
  | .regionAwake r pass => Sys2Proof.Machine.execRegionAwake r pass s
  | .regionSleep src r => Sys2Proof.Machine.execRegionSleep src r s
  | .frzNFall => Sys2Proof.Machine.execFrzNFall s
  | .freezeWtTrigger => Sys2Proof.Machine.execFreezeWtTrigger s
  | .freeze src => Sys2Proof.Machine.execFreeze src s
  | .freezeStop r => Sys2Proof.Machine.execFreezeStop r s
  | .thaw src pinLow => Sys2Proof.Machine.execThaw src pinLow s
  | .thawWt pinLow => Sys2Proof.Machine.execThawWt pinLow s
  | .xfeStep t c => Sys2Proof.Machine.execXfeStep t c s
  | .reportMarkDeadline t => Sys2Proof.Machine.execReportMarkDeadline t s
  | .timebaseHoldover => Sys2Proof.Machine.execTimebaseHoldover s
  | .perstNDeassert => Sys2Proof.Machine.execPerstNDeassert s
  | .hostLinkUp width speed => Sys2Proof.Machine.execHostLinkUp width speed s

end Sys2Proof.Machine
end

