-- ==== Sys2Proof/Machine/Step.lean ====
section
/-! DEFINITION. One step of the block: the command at the front of the queue, or a tick of the reference clock. -/
namespace Sys2Proof.Machine

/-- One step: the command at the front of the queue is performed on the state with the rest of the queue; with no command waiting, one
reference period of 4/7 ns passes (R213; DESIGN CHOICE, log 20). -/
def step (s : State) : Host.Outcome State Fault Refusal :=
  match s.pending with
  | [] => .next (s.advance 1)
  | c :: cs => Sys2Proof.Machine.exec c { s with pending := cs }

/-- The state with the command that a word spells at the front of the queue. -/
def State.withFetchWord (s : State) (nbits w : Nat) : State :=
  match decodeTableWord nbits w with
  | some c => { s with pending := c :: s.pending }
  | none => s

end Sys2Proof.Machine
end

