-- ==== Sys2Proof/Safety.lean ====
section
/-! DEFINITION. What counts as a sound state and a safe run, in the terms of the claims. -/
namespace Sys2Proof.Machine

/-- A sound state: the memory in its canonical form, every waiting command well formed. -/
def State.sound (s : State) : Prop := Memory.wf s.mem ∧ ∀ c ∈ s.pending, Instr.wellFormed c = true

/-- A safe run of `k` steps: no step faults and no step is refused. -/
def safeRun (k : Nat) (s : State) : Prop := ∃ s', Host.Core.run Sys2Proof.core k s = .next s'

/-! ### Words of the claims -/

/-- Command `c` completes: it answers a next state, and that state has `P`. -/
def Completes (c : Instr) (s : State) (P : State → Prop) : Prop := ∃ u, Sys2Proof.Machine.exec c s = .next u ∧ P u

/-- No byte of memory has changed. -/
def SameMem (s u : State) : Prop := ∀ a, u.byte a = s.byte a

/-- No byte of memory outside [`a`, `a + n`) has changed. -/
def SameMemBut (a n : Nat) (s u : State) : Prop := ∀ k, ¬(a ≤ k ∧ k < a + n) → u.byte k = s.byte k

/-- Nothing but tile `t` has changed: no register, no memory, no other tile, no other part of the state. -/
def OnlyTile (t : Nat) (s u : State) : Prop :=
  u = { s with tiles := u.tiles } ∧ (∀ k, k ≠ t → u.tile k = s.tile k) ∧ SameMem s u

/-- Nothing of the chip but its registers has changed; `raised` notes which W1C fields hardware has set in this cycle (R8). -/
def OnlyRegs (s u : State) : Prop := u = { s with regs := u.regs, raised := u.raised } ∧ SameMem s u

/-- A register at a home of `hs` may have changed, every other reads as before. -/
def RegsBut (hs : List Nat) (s u : State) : Prop := ∀ (r : Reg) (i : List Nat), r.loc i ∉ hs → u.reg r i = s.reg r i

/-- The same of a tile's registers. -/
def TileRegsBut (hs : List Nat) (x y : Tile) : Prop := ∀ (r : Reg) (i : List Nat), r.loc i ∉ hs → y.reg r i = x.reg r i

/-- A thread may issue its next instruction (R78): the clock of its tile runs, now and in the fc in which the instruction would issue, and in that
fc it is in RUN. -/
def Ready (s : State) (t th : Nat) : Prop :=
  s.clockOn t = true ∧ (s.atIssue t th).clockOn t = true ∧ (((s.atIssue t th).tile t).th th).st = .run

/-- The state in which an instruction has its effect: that of its fc, with the core's slot taken (R78). -/
def State.issued (s : State) (t th : Nat) : State :=
  let m := (s.atIssue t th).takeSlot t 0
  if th = 0 then m else m.modTile t fun x => { x with lastGather := th }

/-- A requester without a priority finds the slot of a pad line in this very fc (R29): the tile has no work left in it and nobody has claimed the
line's bank, or the pad has no clock. -/
def SlotFree (s : State) (t line : Nat) : Prop :=
  s.clocked t = false ∨ ((s.dues t).any (fun f => decide (f ≤ s.fc t)) = false ∧
    (s.tile t).claims.any (fun c => decide (c.bank = line / 1024)) = false)

/-- The pad line of the entry at a ring's tail. -/
def Tile.tailLine (y : Tile) (n : Nat) : Nat :=
  (y.entryAddr n 0 + (y.tail n * ringEsz (y.ring n)) % max 1 (ringN (y.ring n) * ringEsz (y.ring n))) / 64

/-- In no tile has anything changed but the slots of pad banks taken in this fc (R26). -/
def SlotsOnly (s u : State) : Prop :=
  u = { s with tiles := u.tiles } ∧ SameMem s u ∧ ∀ k, u.tile k = { s.tile k with claims := (u.tile k).claims }

/-- An event of a tile is due, and has a fc to fall in: a row of that event brings the clock to it and has work to do there. -/
def Due (due : State → Option Nat) (t : Nat) (s : State) : Prop :=
  let m := State.seek t due 65536 s
  s.clockOn t = true ∧ (due s).isSome = true ∧ m.clocked t = true ∧ (m.dues t).any (fun f => decide (f ≤ m.fc t)) = true

/-- The state in the fc of an event of a tile when the tile's work of that fc has come to phase `n` (`State.phase`). -/
def State.atPhase (s : State) (due : State → Option Nat) (t n : Nat) : State :=
  (List.range n).foldl (State.phase t) (State.seek t due 65536 s)

/-- In a tile nothing has changed but thread `th`, the issue slot taken, the gather thread that issued last and the armed flip. -/
def OnlyThread (th : Nat) (x y : Tile) : Prop :=
  y = { x with thr := y.thr, used := 0 :: x.used, lastGather := if th = 0 then x.lastGather else th, flip := y.flip } ∧
    ∀ n, n ≠ th → y.th n = x.th n

/-- A thread stands at its next word, with the loop levels that leaves (R83). -/
def AtNext (x y : Thread) : Prop := y.pc = x.next.1.pc ∧ y.loops = x.next.1.loops

/-- No scalar register has changed. -/
def SameS (x y : Thread) : Prop := ∀ r, y.sreg r = x.sreg r

/-- Register `rd` has taken `v` (s0 stays 0), no other scalar register has changed. -/
def WritesS (rd : Nat) (v : W64) (x y : Thread) : Prop :=
  y.sreg rd = (if rd = 0 then 0 else v) ∧ ∀ r, r ≠ rd → y.sreg r = x.sreg r

/-- An instruction that writes `v` to `rd` is done: that register, the pc and the loop levels have changed and nothing else. -/
def Retires (s u : State) (t th rd : Nat) (v : W64) : Prop :=
  OnlyTile t s u ∧ OnlyThread th (s.tile t) (u.tile t) ∧
    WritesS rd v ((s.tile t).th th) ((u.tile t).th th) ∧ AtNext ((s.tile t).th th) ((u.tile t).th th) ∧
    ((u.tile t).th th).cmp = ((s.tile t).th th).cmp ∧ ((u.tile t).th th).lc = ((s.tile t).th th).lc ∧
    ((u.tile t).th th).st = .run

/-- The thread of a tile in a state. -/
def State.thr (s : State) (t th : Nat) : Thread := (s.tile t).th th

/-- What the way of a writer's packet to a tile leaves in the state: nothing, or in Split mode the count of the seam ring's flits (R226, log 78). -/
def State.carried (s : State) (src : Writer) (t : Nat) : State :=
  match src with
  | .host _ => s.routeFree 1168 t
  | .mgmt => s.routeFree 1171 t
  | _ => s

/-- A writer whose writes reach the window of tile `t` (R336, Table 15-2): the device is not frozen, and it is the management core or
a tenant's host past the dike, or a thread of the tile. -/
def Reaches (src : Writer) (t : Nat) (s : State) : Prop :=
  s.isFrozen = false ∧ match src with
    | .host req => s.ownsTile req t = true ∧ s.dikeTile 1168 (s.sender t).2 t = true
    | .thread t' _ => t'.val = t
    | .mgmt => s.dikeTile 1171 0 t = true
    | _ => False

/-- A writer whose writes reach the chip's registers: the host's operator session or the management core (Table 15-2). -/
def ReachesChip (src : Writer) (s : State) : Prop :=
  match src with
  | .host req => s.isOperator req = true
  | .mgmt => True
  | _ => False

/-- A thread in FAULT at the faulting instruction, its registers, comparators, counts and levels as they were (R98). -/
def Faulted (x y : Thread) : Prop := y.st = .fault ∧ y.pc = x.pc ∧ SameS x y ∧ y.cmp = x.cmp ∧ y.lc = x.lc ∧ y.loops = x.loops

end Sys2Proof.Machine
end

