-- ==== Sys2Proof/Certificates/Slice0/Obligations.lean ====
section
/-! DEFINITION. The statements about this model for the provers. -/
open Sys2Proof Sys2Proof.Machine

/-- A step performs the command at the front of the queue on the state with the rest of the queue; with no command waiting a reference period
passes (the model's choice, log 20). -/
def Obligations.AStepPerformsTheFrontCommand : Prop :=
  (∀ (s : State) (c : Instr) (cs : List Instr), s.pending = c :: cs → step s = exec c { s with pending := cs }) ∧
  ∀ s : State, s.pending = [] → step s = .next (s.advance 1)

/-- No command stops the block and none touches the queue: from every state every command answers a next state in which the waiting commands
are as they were. -/
def Obligations.EveryCommandCompletesAndKeepsTheQueue : Prop :=
  ∀ (c : Instr) (s : State), Completes c s fun u => u.pending = s.pending

/-- Memory stays in its one canonical form through every step: addresses strictly rising, no entry equal to what an unlisted address reads as. -/
def Obligations.StepsKeepMemoryCanonical : Prop :=
  ∀ (s u : State), Memory.wf s.mem → step s = .next u → Memory.wf u.mem

/-- The state after reset: memory canonical with nothing listed, every tile HALTED at its reset values, no polder in use, no freeze, no
session, bring-up at stage ROM, the regions asleep, no command waiting (the first contents of flash and fuses are the model's choice, logs
11 and 12). -/
def Obligations.ResetLeavesTheBlockIdle : Prop :=
  Memory.wf State.reset.mem ∧ State.reset.mem = [] ∧ State.reset.pending = [] ∧ (∀ t th, (State.reset.thr t th).st = .halted) ∧
  (∀ d < 8, State.reset.polderState d = 0) ∧ State.reset.frzState = 0 ∧ (∀ m < 16, State.reset.reg .SESS [m] = 0) ∧
  State.reset.stageNow = 1 ∧ ∀ r < 24, State.reset.regState r = 1

/-- An ALU instruction that a thread may issue, with FN[10:9] zero (of any value for SEL and AGL), completes with the result of Table 4-8 in
rd; only rd, the pc, the loop levels and the issue slot change. The immediate instructions complete with the result of Table 4-9 in rd. -/
def Obligations.RegisterInstructionsWriteTheirResult : Prop :=
  (∀ (s0 : State) (t : TileIx) (th : ThreadIx) (w : BitVec 26), Ready s0 t th →
     let s := s0.atIssue t th
     let x := s.thr t th
     let a := x.sreg (fRS1 w); let b := x.sreg (fRS2 w)
     let r := fun v u => Retires s u t th (fRD w) v
     (bits w.toNat 10 9 = 0 →
       Completes (.aluAdd t th w) s0 (r (a + b)) ∧ Completes (.aluSub t th w) s0 (r (a - b)) ∧
       Completes (.aluAnd t th w) s0 (r (a &&& b)) ∧ Completes (.aluOr t th w) s0 (r (a ||| b)) ∧
       Completes (.aluXor t th w) s0 (r (a ^^^ b)) ∧ Completes (.aluSll t th w) s0 (r (a <<< (b.toNat % 64))) ∧
       Completes (.aluSrl t th w) s0 (r (a >>> (b.toNat % 64))) ∧ Completes (.aluSra t th w) s0 (r (a.sshiftRight (b.toNat % 64))) ∧
       Completes (.aluMul t th w) s0 (r (a * b)) ∧
       Completes (.aluMulhu t th w) s0 (r (BitVec.ofNat 64 (a.toNat * b.toNat / 2 ^ 64))) ∧
       Completes (.aluMin t th w) s0 (r (if a.toInt < b.toInt then a else b)) ∧
       Completes (.aluMax t th w) s0 (r (if a.toInt > b.toInt then a else b)) ∧
       Completes (.aluMinu t th w) s0 (r (if a < b then a else b)) ∧ Completes (.aluMaxu t th w) s0 (r (if a > b then a else b))) ∧
     Completes (.aluSel t th w) s0 (r (if x.cmp.getLsbD (bits w.toNat 10 9) then a else b)) ∧
     Completes (.aluAgl t th w) s0 (r (a + BitVec.ofNat 64 (x.idx (bits w.toNat 10 9)) * b))) ∧
  (∀ (s0 : State) (t : TileIx) (th : ThreadIx) (w : BitVec 26), Ready s0 t th →
     let s := s0.atIssue t th
     let a := (s.thr t th).sreg (fRS1 w)
     let r := fun v u => Retires s u t th (fRD w) v
     Completes (.addi t th w) s0 (r (a + (fIMM w).signExtend 64)) ∧ Completes (.andi t th w) s0 (r (a &&& (fIMM w).zeroExtend 64)) ∧
     Completes (.ori t th w) s0 (r (a ||| (fIMM w).zeroExtend 64)) ∧ Completes (.xori t th w) s0 (r (a ^^^ (fIMM w).zeroExtend 64)) ∧
     (bits w.toNat 15 6 = 0 →
       Completes (.slli t th w) s0 (r (a <<< bits w.toNat 5 0)) ∧ Completes (.srli t th w) s0 (r (a >>> bits w.toNat 5 0)) ∧
       Completes (.srai t th w) s0 (r (a.sshiftRight (bits w.toNat 5 0)))) ∧
     (fRS1 w < 4 → Completes (.insi t th w) s0 fun u => ∃ v, r v u ∧ ∀ i < 64,
       v.getLsbD i = if 16 * fRS1 w ≤ i ∧ i < 16 * fRS1 w + 16 then (fIMM w).getLsbD (i - 16 * fRS1 w)
         else ((s.thr t th).sreg (fRD w)).getLsbD i))

/-- CMP and CMPI set the comparator K to their condition (codes 0 to 5 of Table 4-10) and leave the other three and every register. -/
def Obligations.CompareInstructionsSetOneComparator : Prop :=
  ∀ (s0 : State) (t : TileIx) (th : ThreadIx) (w : BitVec 26), Ready s0 t th → bits w.toNat 25 23 < 6 →
    let s := s0.atIssue t th
    let x := s.thr t th
    let a := x.sreg (fRS1 w)
    let cond := fun (b : W64) => match bits w.toNat 25 23 with
      | 0 => decide (a = b) | 1 => decide (a ≠ b) | 2 => decide (a.toInt < b.toInt) | 3 => decide (a.toInt ≥ b.toInt)
      | 4 => decide (a.toNat < b.toNat) | _ => decide (a.toNat ≥ b.toNat)
    let r := fun (c : Bool) u => OnlyTile t s u ∧ OnlyThread th (s.tile t) (u.tile t) ∧ SameS x (u.thr t th) ∧
      AtNext x (u.thr t th) ∧ (u.thr t th).lc = x.lc ∧ (u.thr t th).st = .run ∧
      ∀ k < 4, (u.thr t th).cmp.getLsbD k = if k = bits w.toNat 22 21 then c else x.cmp.getLsbD k
    (fFN w = 0 → Completes (.cmp t th w) s0 (r (cond (x.sreg (fRS2 w))))) ∧
    Completes (.cmpi t th w) s0 (r (cond ((fIMM w).signExtend 64)))

/-- BR, JAL and JR: the pc of the target or of the next word, the link in rd, and the loop levels that R84 leaves: a level whose body does not
hold the target goes with every level entered after it. -/
def Obligations.BranchesAndJumpsTransferControl : Prop :=
  ∀ (s0 : State) (t : TileIx) (th : ThreadIx) (w : BitVec 26), Ready s0 t th →
    let s := s0.atIssue t th
    let x := s.thr t th
    let lands := fun (tgt : BitVec 15) (u : State) => OnlyTile t s u ∧ OnlyThread th (s.tile t) (u.tile t) ∧
      (u.thr t th).pc = tgt ∧ (u.thr t th).cmp = x.cmp ∧ (u.thr t th).lc = x.lc ∧ (u.thr t th).st = .run ∧
      ∃ gone, x.loops = gone ++ (u.thr t th).loops ∧
        (∀ l ∈ (u.thr t th).loops, l.first ≤ tgt.toNat ∧ tgt.toNat ≤ l.last) ∧
        ∀ l, gone.getLast? = some l → ¬(l.first ≤ tgt.toNat ∧ tgt.toNat ≤ l.last)
    let link := BitVec.ofNat 64 (x.pc.toNat + 1)
    (bits w.toNat 25 23 = 0 → bits w.toNat 19 16 = 0 →
      (x.cmp.getLsbD (bits w.toNat 22 21) = bit w.toNat 20 →
        Completes (.br t th w) s0 fun u => lands (x.pc + BitVec.ofNat 15 w.toNat) u ∧ SameS x (u.thr t th)) ∧
      (x.cmp.getLsbD (bits w.toNat 22 21) ≠ bit w.toNat 20 →
        Completes (.br t th w) s0 fun u => OnlyTile t s u ∧ OnlyThread th (s.tile t) (u.tile t) ∧ SameS x (u.thr t th) ∧
          AtNext x (u.thr t th) ∧ (u.thr t th).cmp = x.cmp ∧ (u.thr t th).lc = x.lc ∧ (u.thr t th).st = .run)) ∧
    (fRS1 w = 0 →
      Completes (.jal t th w) s0 fun u => lands (x.pc + BitVec.ofNat 15 w.toNat) u ∧ WritesS (fRD w) link x (u.thr t th)) ∧
    Completes (.jr t th w) s0 fun u =>
      lands ((x.sreg (fRS1 w) + (fIMM w).signExtend 64).truncate 15) u ∧ WritesS (fRD w) link x (u.thr t th)

/-- The word after the last of the bodies that end at a word: the innermost level that has iterations left loops back with its index one
higher; the levels inside it that end there are over; a word at which no level ends is followed by the next word. -/
def Obligations.LoopLevelsCloseInnermostFirst : Prop :=
  ∀ (x : Thread) (over_ : List LoopRec) (rest : List LoopRec), x.loops = over_ ++ rest →
    (∀ l ∈ over_, l.last = x.pc.toNat ∧ l.act ≤ l.idx + 1) →
    (∀ l ls, rest = l :: ls → l.last = x.pc.toNat → l.idx + 1 < l.act →
      x.next.1.pc = BitVec.ofNat 15 l.first ∧ x.next.1.loops = { l with idx := l.idx + 1 } :: ls) ∧
    ((∀ l ls, rest = l :: ls → l.last ≠ x.pc.toNat) → x.next.1.pc = x.pc + 1 ∧ x.next.1.loops = rest)

/-- LD, LW and LB at an address inside the pad, aligned and in the thread's window, in a line whose check passes in the fc in which the access
finds its slot: rd takes the little-endian bytes, zero-extended; memory stays; nothing but the tile changes. Where no unit has claimed the
bank, that fc is the one of the issue. -/
def Obligations.LoadsReadThePad : Prop :=
  ∀ (s0 : State) (t : TileIx) (th : ThreadIx) (w : BitVec 26), Ready s0 t th →
    let m := s0.issued t th
    let x := m.thr t th
    let a := fADDR x w
    let s := m.threadSlot t th (a / 64)
    let r := fun (n : Nat) (c : Instr) => m.addrOk t th a n = true → s.lineOk t (a / 64) = true → s.clockOn t = true →
      Completes c s0 fun u => WritesS (fRD w) (BitVec.ofNat 64 (leNat (s.bytes (padAddr t a) n))) x (u.thr t th) ∧
        AtNext x (u.thr t th) ∧ (u.thr t th).st = .run ∧ (u.thr t th).cmp = x.cmp ∧ (u.thr t th).lc = x.lc ∧ OnlyTile t s u
    r 8 (.ld t th w) ∧ r 4 (.lw t th w) ∧ r 1 (.lb t th w) ∧
      ((∀ c ∈ (m.tile t).claims, c.bank ≠ a / 64 / 1024) → SlotsOnly m s)

/-- ST, SW and SB at such an address, outside the live code bank: the low bytes of the register stand in the pad at that address, little-
endian; no other byte of memory and no scalar register changes. -/
def Obligations.StoresWriteThePad : Prop :=
  ∀ (s0 : State) (t : TileIx) (th : ThreadIx) (w : BitVec 26), Ready s0 t th →
    let m := s0.issued t th
    let x := m.thr t th
    let a := fADDR x w
    let s := m.threadSlot t th (a / 64)
    let r := fun (n : Nat) (c : Instr) => m.addrOk t th a n = true → s.lineOk t (a / 64) = true → s.clockOn t = true →
      (s.tile t).liveLine (a / 64) = false →
      Completes c s0 fun u => u.bytes (padAddr t a) n = natLe n (x.sreg (fRD w)).toNat ∧ SameMemBut (padAddr t a) n s u ∧
        SameS x (u.thr t th) ∧ AtNext x (u.thr t th) ∧ (u.thr t th).st = .run ∧ (u.thr t th).cmp = x.cmp ∧
        (u.thr t th).lc = x.lc ∧ u.regs = s.regs ∧ ∀ k, k ≠ t.val → u.tile k = s.tile k
    r 8 (.st t th w) ∧ r 4 (.sw t th w) ∧ r 1 (.sb t th w)

/-- A load or store outside the pad, misaligned or outside the thread's window is BOUNDS, and an undefined word is ILLEGAL_INSN: the thread
enters FAULT at the instruction with nothing written, CORE_FLT shows FLT and, if it showed none before, the code, the thread and the pc of
this fault; memory stays. -/
def Obligations.FaultingInstructionsStopTheirThread : Prop :=
  ∀ (s0 : State) (t : TileIx) (th : ThreadIx) (w : BitVec 26), Ready s0 t th →
    let s := s0.atIssue t th
    let x := s.thr t th
    let faults := fun (code : Nat) (c : Instr) => Completes c s0 fun u => Faulted x (u.thr t th) ∧ SameMem s u ∧
      (u.tile t).fld .CORE_FLT [] F.CORE_FLT_FLT = 1 ∧
      ((s.tile t).fld .CORE_FLT [] F.CORE_FLT_FLT = 0 →
        (u.tile t).fld .CORE_FLT [] F.CORE_FLT_CODE = code ∧ (u.tile t).fld .CORE_FLT [] F.CORE_FLT_THREAD = th.val ∧
        (u.tile t).fld .CORE_FLT [] F.CORE_FLT_PC = x.pc.toNat)
    (s.addrOk t th (fADDR x w) 8 = false → faults 2 (.ld t th w) ∧ faults 2 (.st t th w)) ∧
    (s.addrOk t th (fADDR x w) 4 = false → faults 2 (.lw t th w) ∧ faults 2 (.sw t th w)) ∧
    (s.addrOk t th (fADDR x w) 1 = false → faults 2 (.lb t th w) ∧ faults 2 (.sb t th w)) ∧
    (bits w.toNat 10 9 ≠ 0 → faults 1 (.aluAdd t th w) ∧ faults 1 (.aluMaxu t th w)) ∧
    (bits w.toNat 15 6 ≠ 0 → faults 1 (.slli t th w)) ∧ (4 ≤ fRS1 w → faults 1 (.insi t th w)) ∧
    (6 ≤ bits w.toNat 25 23 → faults 1 (.cmp t th w) ∧ faults 1 (.cmpi t th w)) ∧
    (fRS1 w ≠ 0 → faults 1 (.jal t th w)) ∧ (bits w.toNat 25 24 = 3 → faults 1 (.push t th w)) ∧
    (fIMM w = 0 → faults 1 (.pause t th w)) ∧ (w ≠ 0 → faults 1 (.thalt t th w))

/-- RPOP and RPUSH on an enabled ring whose unit is the thread and whose entry lies in its window: HEAD or TAIL goes on by one entry and wraps
at the ring's end; RPTR reads the head's address, the tail's address, the occupancy, each as at the start of the fc, or the fill cursor. -/
def Obligations.RingInstructionsMoveThePointers : Prop :=
  ∀ (s0 : State) (t : TileIx) (th : ThreadIx) (w : BitVec 26), Ready s0 t th →
    let s := s0.atIssue t th
    let x := s.thr t th
    let y := s.tile t
    let n := fRS1 w
    let size := ringN (y.ring n)
    let keeps := fun (u : State) => (∀ k, k ≠ t.val → u.tile k = s.tile k) ∧ SameMem s u ∧ u.regs = s.regs ∧ SameS x (u.thr t th) ∧
      AtNext x (u.thr t th) ∧ (u.thr t th).st = .run
    (fRD w = 0 → fIMM w = 0 →
      (s.ringOk t th n (y.fld .RING_CFG [n] F.RING_CFG_CONS) (y.head n) = true → 0 < y.avail n → y.head n < size → ringGeom (y.ring n) = true →
        Completes (.rpop t th w) s0 fun u => keeps u ∧ (u.tile t).head n = (y.head n + 1) % size ∧ (u.tile t).tail n = y.tail n) ∧
      (s.ringOk t th n (y.fld .RING_CFG [n] F.RING_CFG_PROD) (y.tail n) = true → y.ringFull n = false → y.tail n < size → ringGeom (y.ring n) = true →
        Completes (.rpush t th w) s0 fun u => keeps u ∧ (u.tile t).tail n = (y.tail n + 1) % size ∧ (u.tile t).head n = y.head n) ∧
      (s.ringOk t th n (y.fld .RING_CFG [n] F.RING_CFG_PROD) (y.tail n) = true → y.ringFull n = true →
        y.fld .RING_CFG [n] F.RING_CFG_EDGE = 1 →
        Completes (.rpush t th w) s0 fun u => keeps u ∧ (u.tile t).tail n = y.tail n ∧ (u.tile t).head n = y.head n ∧
          (u.tile t).fld .RING_STAT [n] F.RING_STAT_OVR = 1)) ∧
    (bits w.toNat 15 2 = 0 → Completes (.rptr t th w) s0 fun u => Retires s u t th (fRD w) (BitVec.ofNat 64 (
      match bits w.toNat 1 0 with
      | 0 => y.entryAddr n (y.headWas n) | 1 => y.entryAddr n (y.tailWas n) | 2 => y.occWas n | _ => y.fld .RING_STAT [n] F.RING_STAT_FILL)))

/-- PUSH and SEND into a queue with room append the command with its thread and fc; into a full one the thread stalls with it. A stalled
thread, the only one of its tile, whose queue has room once the engines have begun their commands of a fc appends its command in that fc
and goes on; the head of the send queue leaves it: a gauge add travels, a hub request enters its hub's queue if that has room, another
message goes to the management core. -/
def Obligations.QueueInstructionsQueueAndDrain : Prop :=
  (∀ (s0 : State) (t : TileIx) (th : ThreadIx) (w : BitVec 26), Ready s0 t th →
     let s := s0.atIssue t th
     let x := s.thr t th
     let y := s.tile t
     let c := x.sreg (fRS2 w) ++ x.sreg (fRS1 w)
     let queued := fun (q : Nat) (u : State) => (u.tile t).queue q = y.queue q ++ [⟨c, th, s.fc t⟩] ∧ SameS x (u.thr t th) ∧
       AtNext x (u.thr t th) ∧ (u.thr t th).st = .run ∧ OnlyTile t s u ∧ ∀ p, p ≠ q → p < 4 → (u.tile t).queue p = y.queue p
     let stalled := fun (q : Nat) (u : State) => (u.thr t th).st = .stall q c (s.fc t) ∧ AtNext x (u.thr t th) ∧
       SameS x (u.thr t th) ∧ SameMem s u ∧ u.regs = s.regs ∧ ∀ p, (u.tile t).queue p = y.queue p
     let q := bits w.toNat 25 24
     (q < 3 → bits w.toNat 23 21 = 0 → fFN w = 0 →
       (y.qFull q = false → Completes (.push t th w) s0 (queued q)) ∧ (y.qFull q = true → Completes (.push t th w) s0 (stalled q))) ∧
     (fRD w = 0 → fFN w = 0 → descOk (x.sreg (fRS1 w)) (x.sreg (fRS2 w)) = true →
       (y.qFull 3 = false → Completes (.send t th w) s0 (queued 3)) ∧ (y.qFull 3 = true → Completes (.send t th w) s0 (stalled 3)))) ∧
  (∀ (s : State) (t : TileIx), s.clockOn t = true →
     (∀ (th : ThreadIx) (q : Nat) (c : BitVec 128) (since : Nat), (s.thr t th).st.code = 5 → q < 4 →
       let due := fun z : State => State.stallNext t th (z.work t)
       let m := State.seek t due 65536 s
       let n := s.atPhase due t 20
       m.clocked t = true → (m.dues t).any (fun f => decide (f ≤ m.fc t)) = true → n.clockOn t = true →
       (n.thr t th).st = .stall q c since → (n.tile t).qFull q = false → (∀ k < 16, k ≠ th.val → (n.thr t k).st.code ≠ 5) →
       Completes (.stallResume t th) s fun u => OnlyTile t n u ∧ (u.tile t).queue q = (n.tile t).queue q ++ [⟨c, th, n.fc t⟩] ∧
         u.thr t th = { n.thr t th with st := .run }) ∧
     ∀ (c : QCmd) (cs : List QCmd), (s.tile t).sendq = c :: cs →
       let w0 : W64 := c.cmd.truncate 64; let w1 : W64 := (c.cmd >>> 64).truncate 64
       let dest := bits w0.toNat 43 32
       let r : HubReq := ⟨t, (s.sender t).1, (s.sender t).2, w0, w1⟩
       let leaves := fun (u : State) => (u.tile t).sendq = cs ∧ SameMem s u ∧ RegsBut [Reg.loc .SEAM_STAT []] s u ∧
         ∀ k, k ≠ t.val → u.tile k = s.tile k
       (bits w0.toNat 63 60 = 1 → Completes (.sendDrain t) s fun u => leaves u ∧ u.hubs = s.hubs ∧
         ∃ g, u.gadds = s.gadds ++ [g] ∧ g.dest.val = dest % 1152 ∧ g.gauge.val = bits w0.toNat 31 28 ∧
           g.amount = w1.truncate 32 ∧ g.e = bit w0.toNat 59 ∧ g.src = t.val) ∧
       (bits w0.toNat 63 60 = 3 → s.hubRoom dest (bits w0.toNat 27 24) = true → Completes (.sendDrain t) s fun u => leaves u ∧
         (sget Hub.init u.hubs dest).reqs = (sget Hub.init s.hubs dest).reqs ++ [r] ∧
         ∀ h, h ≠ dest → sget Hub.init u.hubs h = sget Hub.init s.hubs h) ∧
       (bits w0.toNat 63 60 = 4 → s.mgmt.length < 256 → Completes (.sendDrain t) s fun u => leaves u ∧ u.mgmt = s.mgmt ++ [r]))

/-- The changes of one fc land on a gauge together: a CSR write first, then a GSET, then the sum of the adds; a sum beyond 0xFFFF_FFFF leaves
VALUE at 0xFFFF_FFFF with ERR 1 and G_OVF; an add that carries an error sets ERR. -/
def Obligations.GaugeChangesOfOneFcLandInOrder : Prop :=
  ∀ (x : Tile) (cs : List GChange) (g : Nat), g < 16 → cs.any (GChange.on g) = true →
    let base : Nat × Nat := match lastSet g cs, lastCsr g cs with
      | some v, _ => (v.toNat, 0)
      | none, some v => (v.toNat % 2 ^ 32, v.toNat / 2 ^ 32 % 2)
      | none, none => ((x.gauge g).toNat % 2 ^ 32, (x.gauge g).toNat / 2 ^ 32 % 2)
    let sum := base.1 + (sumAdds g cs).1
    let y := x.flushGauge cs g
    (sum < 2 ^ 32 → y.fld .GAUGE [g] F.GAUGE_VALUE = sum ∧
      y.fld .GAUGE [g] F.GAUGE_ERR = if (sumAdds g cs).2 then 1 else base.2) ∧
    (2 ^ 32 ≤ sum → y.fld .GAUGE [g] F.GAUGE_VALUE = 2 ^ 32 - 1 ∧ y.fld .GAUGE [g] F.GAUGE_ERR = 1 ∧
      y.fld .CORE_FLT [] F.CORE_FLT_G_OVF = 1) ∧
    ∀ h, h < 16 → h ≠ g → y.gauge h = x.gauge h

/-- GADD, GSET and a remote or register change of a gauge join the changes of this fc; GRD, and GWAIT where VALUE has reached the threshold or
ERR is set, deliver ERR and VALUE to rd; GWAIT elsewhere puts the thread into WAIT with the next word in its pc. -/
def Obligations.GaugeInstructionsActOnGauges : Prop :=
  ∀ (s0 : State) (t : TileIx) (th : ThreadIx) (w : BitVec 26), Ready s0 t th →
    let s := s0.atIssue t th
    let x := s.thr t th
    let y := s.tile t
    let v := if bit w.toNat 21 then (x.sreg (fRS1 w)).truncate 32 else (fIMM w).zeroExtend 32
    let joins := fun (c : GChange) (u : State) => (u.tile t).gpend = y.gpend ++ [c] ∧ (u.tile t).regs = y.regs ∧ SameS x (u.thr t th) ∧
      AtNext x (u.thr t th) ∧ (u.thr t th).st = .run ∧ OnlyTile t s u
    let word := fun (g : Nat) => BitVec.ofNat 64 ((y.gauge g).toNat / 2 ^ 32 % 2 * 2 ^ 63 + (y.gauge g).toNat % 2 ^ 32)
    let g := bits w.toNat 15 12
    let thr := ((x.sreg (fRS1 w)).toNat + bits w.toNat 11 0) % 2 ^ 32
    let met := thr ≤ (y.gauge g).toNat % 2 ^ 32 ∨ (y.gauge g).toNat / 2 ^ 32 % 2 = 1
    ((bit w.toNat 21 = true ∨ fRS1 w = 0) →
      Completes (.gadd t th w) s0 (joins (.add (bits w.toNat 25 22) v.toNat false)) ∧
      Completes (.gset t th w) s0 (joins (.set (bits w.toNat 25 22) v))) ∧
    (fRS1 w = 0 → bits w.toNat 11 0 = 0 → Completes (.grd t th w) s0 fun u => Retires s u t th (fRD w) (word g)) ∧
    (met → Completes (.gwait t th w) s0 fun u => Retires s u t th (fRD w) (word g)) ∧
    (¬met → Completes (.gwait t th w) s0 fun u => (u.thr t th).st = .wait (fRD w) g thr s.wt none x.pc ∧ AtNext x (u.thr t th) ∧
      SameS x (u.thr t th) ∧ OnlyTile t s u ∧ OnlyThread th y (u.tile t))

/-- A thread whose gauge first showed the condition in fc `f` goes on in fc f + 3 with the ERR and VALUE of fc `f` in rd; one whose condition
is still unmet LIMIT µs after its GWAIT enters FAULT with GAUGE_TIMEOUT (code 6); a remote gauge add that passes the dike joins the
changes of its gauge and one that does not is dropped and counted; a write of GAUGE by a tenant's host, the tile's own thread or the
management core joins them as a set. -/
def Obligations.GaugeWaitsEndAndRemoteAddsLand : Prop :=
  (∀ (s : State) (t : TileIx) (th : ThreadIx) (rd g thr since f : Nat) (v : W64) (pc : BitVec 15),
    let n := s.settle t
    let m := (n.tileToFc t (f + 3)).csrLand t
    s.clockOn t = true → (s.thr t th).st.code = 2 → (n.thr t th).st = .wait rd g thr since (some (f, v)) pc →
    (n.tileToFc t (f + 3)).clocked t = true → m.clockOn t = true → f + 3 ≤ m.fc t →
    (m.thr t th).st = .wait rd g thr since (some (f, v)) pc → (m.tile t).flip = none →
    Completes (.gwaitWake t th) s fun u => WritesS rd v (m.thr t th) (u.thr t th) ∧ (u.thr t th).pc = (m.thr t th).pc ∧
      (u.thr t th).loops = (m.thr t th).loops ∧ (u.thr t th).st = .run ∧ OnlyTile t m u) ∧
  (∀ (fc : Nat) (y : Tile) (th rd g thr since : Nat) (pc : BitVec 15), (y.th th).st = .wait rd g thr since none pc →
    let met := if y.gaugeMet g thr = true then some (fc, y.gaugeWord g) else none
    (y.seeGauge fc th).th th = { y.th th with st := .wait rd g thr since met pc }) ∧
  (∀ (s : State) (t : TileIx) (th : ThreadIx) (rd g thr since : Nat) (pc : BitVec 15),
    let lim := (s.tile t).fld .GWDOG [] F.GWDOG_LIMIT
    let m := s.toWt (since + lim * 256000)
    s.clockOn t = true → (s.thr t th).st = .wait rd g thr since none pc → lim ≠ 0 → m.clockOn t = true →
    (m.thr t th).st = .wait rd g thr since none pc →
    Completes (.gaugeTimeout t th) s fun u => Faulted { m.thr t th with pc := pc } (u.thr t th) ∧ SameMem m u ∧
      (u.tile t).fld .CORE_FLT [] F.CORE_FLT_FLT = 1 ∧ (u.tile t).fld .CORE_FLT [] F.CORE_FLT_WDOG = 1) ∧
  (∀ (s : State) (g : GaugeAdd),
    (s.dikeTile g.src g.tenant.toNat g.dest = true → Completes (.remoteGaugeAdd g) s fun u =>
      (u.tile g.dest).gpend = (s.tile g.dest).gpend ++ [.add g.gauge g.amount.toNat g.e] ∧ SameMem s u ∧ u.regs = s.regs) ∧
    (s.dikeTile g.src g.tenant.toNat g.dest = false → Completes (.remoteGaugeAdd g) s fun u =>
      u.fld .DIKE_STAT [] F.DIKE_STAT_SVC_DROP = (s.fld .DIKE_STAT [] F.DIKE_STAT_SVC_DROP + 1) % 2 ^ 32 ∧ u.tiles = s.tiles)) ∧
  ∀ (s0 : State) (src : Writer) (t : TileIx) (n : GaugeIx) (v : W64), Reaches src t s0 →
    let s := s0.carried src t
    Completes (.gaugeWrite src t n v) s0 fun u => OnlyTile t s u ∧ u.tile t = { s.tile t with gpend := (s.tile t).gpend ++ [.csr n v] }

/-- GARM writes the channel's arm record; a record whose gauge shows the condition sends one ready report with its offer and ERR and is spent;
GAWAIT puts the thread into GUN, but a pace thread whose record names an untaken instant now or earlier has missed its gun; at the fire
instant a gather thread goes on with the verdict in rd, and so does the pace thread, which takes the record. -/
def Obligations.TilesTakePartInGuns : Prop :=
  (∀ (s0 : State) (t : TileIx) (th : ThreadIx) (w : BitVec 26), Ready s0 t th →
    let s := s0.atIssue t th
    let x := s.thr t th
    let y := s.tile t
    let c := bits w.toNat 25 20
    let ch := bits w.toNat 20 15
    let offer : Option (BitVec 16) := if bit w.toNat 10 then some ((x.sreg (bits w.toNat 9 5)).truncate 16) else none
    let arm : Arm := ⟨bits w.toNat 19 16, (x.sreg (bits w.toNat 15 11)).toNat % 2 ^ 32, offer, false, s.fc t⟩
    let missed := th.val = 0 ∧ ∃ f, sget none y.fires ch = some f ∧ f.taken = false ∧ f.n ≤ s.fc t
    (bits w.toNat 4 0 = 0 → Completes (.garm t th w) s0 fun u => sget none (u.tile t).arms c = some arm ∧ OnlyTile t s u ∧
      (∀ k, k ≠ c → sget none (u.tile t).arms k = sget none y.arms k) ∧ SameS x (u.thr t th) ∧ AtNext x (u.thr t th)) ∧
    (bits w.toNat 14 0 = 0 →
      (¬missed → Completes (.gawait t th w) s0 fun u => (u.thr t th).st = .gun ch (fRD w) (s.fc t) false ∧ AtNext x (u.thr t th) ∧
        SameS x (u.thr t th) ∧ OnlyTile t s u ∧ OnlyThread th y (u.tile t)) ∧
      (missed → Completes (.gawait t th w) s0 fun u => Faulted x (u.thr t th) ∧ (u.tile t).fld .SEG_FLT [] F.SEG_FLT_MISS = 1 ∧
        (u.tile t).fld .CORE_FLT [] F.CORE_FLT_FLT = 1))) ∧
  (∀ (s : State) (t : TileIx) (ch : ChanIx) (a : Arm), s.clockOn t = true → sget none (s.tile t).arms ch = some a → a.spent = false →
    (s.tile t).gaugeMet a.gauge a.thr = true →
    Completes (.armReport t ch) s fun u => sget none (u.tile t).arms ch = some { a with spent := true } ∧ SameMem s u ∧
      u.readies = s.readies ++ [⟨ch, t, a.offer, decide ((s.tile t).fld .GAUGE [a.gauge] F.GAUGE_ERR = 1)⟩] ∧ u.regs = s.regs) ∧
  ∀ (s : State) (t : TileIx) (th : ThreadIx) (ch rd since : Nat) (f : Fire),
    let m := s.tileToFc t f.n
    s.clockOn t = true → (s.thr t th).st = .gun ch rd since false → sget none (s.tile t).fires ch = some f → since < f.n →
    m.clockOn t = true → (m.thr t th).st = .gun ch rd since false →
    (th.val ≠ 0 → Completes (.gunResume t th) s fun u => WritesS rd (f.verdict.zeroExtend 64) (m.thr t th) (u.thr t th) ∧
      (u.thr t th).pc = (m.thr t th).pc ∧ (u.thr t th).loops = (m.thr t th).loops ∧ (u.thr t th).st = .run ∧ OnlyTile t m u) ∧
    (th.val = 0 → f.taken = false → (m.tile t).flip = none →
      Completes (.gunResume t th) s fun u => WritesS rd (f.verdict.zeroExtend 64) (m.thr t th) (u.thr t th) ∧
        (u.thr t th).pc = (m.thr t th).pc ∧ (u.thr t th).loops = (m.thr t th).loops ∧ (u.thr t th).st = .run ∧ OnlyTile t m u ∧
        sget none (u.tile t).fires ch = some { f with taken := true })

/-- TSPAWN, THALT, PAUSE, SETLC and LOOP do what R82 and R102 say to the threads, counts and levels; a thread that is to start runs, at its
word, from the next fc. -/
def Obligations.ThreadControlInstructionsAct : Prop :=
  (∀ (y : Tile) (n k fc : Nat) (pc : BitVec 15), (y.th n).st = .halted → y.starts = [(n, some pc)] →
    (y.endFc k fc).th n = { y.th n with st := .run, pc := pc } ∧ (y.endFc k fc).starts = []) ∧
  ∀ (s0 : State) (t : TileIx) (th : ThreadIx) (w : BitVec 26), Ready s0 t th →
    let s := s0.atIssue t th
    let x := s.thr t th
    let only := fun (u : State) => OnlyTile t s u ∧ SameS x (u.thr t th)
    let n := bits w.toNat 25 22
    let k := bits w.toNat 15 14
    let lv := bits w.toNat 25 24
    let len := bits w.toNat 14 0
    let act := (sget 0 x.lc lv).toNat
    (n ≠ 0 → bits w.toNat 21 21 = 0 → bits w.toNat 13 0 = 0 →
      ((s.thr t n).st = .halted → Completes (.tspawn t th w) s0 fun u => only u ∧ AtNext x (u.thr t th) ∧ (u.thr t th).st = .run ∧
        (u.thr t th).cmp.getLsbD k = true ∧ sget none (u.tile t).starts n = some ((x.sreg (fRS1 w)).truncate 15) ∧
        ∀ m, m ≠ th.val → u.thr t m = s.thr t m) ∧
      ((s.thr t n).st ≠ .halted → Completes (.tspawn t th w) s0 fun u => only u ∧ OnlyThread th (s.tile t) (u.tile t) ∧
        AtNext x (u.thr t th) ∧ (u.thr t th).st = .run ∧ (u.thr t th).cmp.getLsbD k = false)) ∧
    (w = 0 → Completes (.thalt t th w) s0 fun u => only u ∧ (∀ m, m ≠ th.val → u.thr t m = s.thr t m) ∧ (u.thr t th).st = .halted ∧
      sget none (u.tile t).starts th = none ∧ (u.thr t th).loops = [] ∧ (u.thr t th).pc = x.pc + 1 ∧ (th.val = 0 → (u.tile t).flip = none)) ∧
    (bits w.toNat 25 16 = 0 → fIMM w ≠ 0 → Completes (.pause t th w) s0 fun u => only u ∧ OnlyThread th (s.tile t) (u.tile t) ∧
      AtNext x (u.thr t th) ∧ (u.thr t th).st = .pause (s.fc t + (fIMM w).toNat)) ∧
    (bits w.toNat 22 21 = 0 → (bit w.toNat 23 = true ∨ fRS1 w = 0) →
      Completes (.setlc t th w) s0 fun u => only u ∧ OnlyThread th (s.tile t) (u.tile t) ∧ AtNext x (u.thr t th) ∧
        sget 0 (u.thr t th).lc lv = (if bit w.toNat 23 then (x.sreg (fRS1 w)).truncate 32 else (fIMM w).zeroExtend 32) ∧
        ∀ m, m ≠ lv → sget 0 (u.thr t th).lc m = sget 0 x.lc m) ∧
    (bits w.toNat 23 15 = 0 → len ≠ 0 → (∀ l ∈ x.loops, l.level ≠ lv ∧ x.pc.toNat + len ≤ l.last ∧ l.last ≠ x.pc.toNat) →
      Completes (.loop t th w) s0 fun u => only u ∧ OnlyThread th (s.tile t) (u.tile t) ∧ (u.thr t th).st = .run ∧
        (act = 0 → (u.thr t th).pc = x.pc + BitVec.ofNat 15 (len + 1) ∧ (u.thr t th).loops = x.loops) ∧
        (act ≠ 0 → (u.thr t th).pc = x.pc + 1 ∧
          (u.thr t th).loops =
            ⟨lv, act, 0, x.pc.toNat + 1, x.pc.toNat + len, x.fetch.filter fun e => holdsLine (x.pc.toNat + 1) e.1⟩ :: x.loops))

/-- A pause ends at its fc; FLIP arms a flip whose line of the inactive bank is read, as a fetch of the pace thread, from the next fc on; the
flip, once due, toggles the bank, sets the pace thread to the target with that line in its fetch buffer, empties every loop level and
every other fetch buffer and restarts every gather thread that is neither HALTED nor in FAULT at its ENTRY; a code line that passes its
check enters the fetch buffer; THR_CTL halts and starts threads. -/
def Obligations.PausesFlipsAndFetchesAct : Prop :=
  let flips := fun (m u : State) (t : TileIx) (f : Flip) => OnlyTile t m u ∧ (u.tile t).flip = none ∧
    (u.tile t).fld .CODE_CTL [] F.CODE_CTL_ACTIVE = 1 - (m.tile t).fld .CODE_CTL [] F.CODE_CTL_ACTIVE ∧
    (u.thr t 0).pc = f.target ∧ (u.thr t 0).fetch = (f.line.map fun d => (f.target.toNat / 16, d)).toList ∧
    (∀ n < 16, (u.thr t n).loops = []) ∧ (∀ n, 0 < n → n < 16 → (u.thr t n).fetch = [] ∧ SameS (m.thr t n) (u.thr t n)) ∧
    (∀ n, 0 < n → n < 16 → (m.thr t n).st ≠ .halted → (m.thr t n).st ≠ .fault →
      (u.thr t n).st = .run ∧ (u.thr t n).pc.toNat = (m.tile t).fld .THR_CTL [n] F.THR_CTL_ENTRY) ∧
    ∀ n, 0 < n → n < 16 → ((m.thr t n).st = .halted ∨ (m.thr t n).st = .fault) →
      (u.thr t n).st = (m.thr t n).st ∧ (u.thr t n).pc = (m.thr t n).pc
  (∀ (s : State) (t : TileIx) (th : ThreadIx) (till : Nat),
    let m := (s.tileToFc t till).csrLand t
    s.clockOn t = true → (s.thr t th).st = .pause till → (s.tileToFc t till).clocked t = true → m.clockOn t = true → till ≤ m.fc t →
    (m.thr t th).st = .pause till → (m.tile t).flip = none →
    Completes (.pauseEnd t th) s fun u => OnlyTile t m u ∧ u.thr t th = { m.thr t th with st := .run }) ∧
  (∀ (s0 : State) (t : TileIx) (w : BitVec 26), Ready s0 t 0 →
    let s := s0.atIssue t 0
    let y := s.tile t
    let b := 1 - y.fld .CODE_CTL [] F.CODE_CTL_ACTIVE
    let tgt := bits w.toNat 14 0
    y.flip = none → bits w.toNat 22 15 = 0 →
    (bit w.toNat 25 = true → ∃ l ∈ (s.thr t 0).loops, l.level = bits w.toNat 24 23) → tgt / 16 < y.bankLines b →
    Completes (.flip t 0 w) s0 fun u => OnlyTile t s u ∧ OnlyThread 0 y (u.tile t) ∧ SameS (s.thr t 0) (u.thr t 0) ∧
      AtNext (s.thr t 0) (u.thr t 0) ∧ (u.thr t 0).st = .run ∧
      ∃ due, (u.tile t).flip = some ⟨if bit w.toNat 25 then some (bits w.toNat 24 23) else none, BitVec.ofNat 15 tgt, none, s.fc t + 1, due⟩) ∧
  (∀ (s : State) (t : Nat) (f : Flip), (s.tile t).flip = some f → f.line = none → f.req ≤ s.fc t →
    let y := s.tile t
    let l := y.bankLine (1 - y.fld .CODE_CTL [] F.CODE_CTL_ACTIVE) (f.target.toNat / 16)
    (y.taken (l / 1024) = false → s.lineOk t l = true →
      ((s.flipRead t).tile t).flip = some { f with line := some (s.bytes (padAddr t (64 * l)) 64) } ∧ OnlyTile t s (s.flipRead t)) ∧
    (y.taken (l / 1024) = true → ((s.flipRead t).tile t).flip = some { f with req := s.fc t + 1 } ∧
      ((s.flipRead t).tile t).fld .PAD_ERR [] F.PAD_ERR_SLIP = 1)) ∧
  (∀ (s : State) (t : TileIx) (f : Flip) (e : Nat),
    let n := if e < s.fc t then s else s.tileToFc t (e + 1)
    let m := n.csrLand t
    s.clockOn t = true → (s.tile t).flip = some f → f.due = some e → n.clocked t = true → m.clockOn t = true →
    (m.tile t).flip = some f → e < m.fc t → Completes (.flipTakeEffect t) s fun u => flips m u t f) ∧
  (∀ (s : State) (t : TileIx) (f : Flip) (r : Fire) (ch rd since : Nat),
    let m := s.tileToFc t r.n
    s.clockOn t = true → (s.tile t).flip = some f → f.due = none → f.level = none → (s.thr t 0).st = .gun ch rd since false →
    sget none (s.tile t).fires ch = some r → since < r.n → r.taken = false → m.clockOn t = true → (m.tile t).flip = some f →
    (m.thr t 0).st = .gun ch rd since false →
    Completes (.flipTakeEffect t) s fun u => flips m u t f ∧ (u.thr t 0).st = .run ∧
      WritesS rd (r.verdict.zeroExtend 64) (m.thr t 0) (u.thr t 0)) ∧
  (∀ (s0 : State) (t : TileIx) (th : ThreadIx) (line : Nat),
    let s := s0.work t
    let y := s.tile t
    let pl := y.bankLine (y.fld .CODE_CTL [] F.CODE_CTL_ACTIVE) line
    s0.clockOn t = true → s.clockOn t = true → (s.thr t th).st ≠ .halted → (s.thr t th).st ≠ .fault →
    line < y.bankLines (y.fld .CODE_CTL [] F.CODE_CTL_ACTIVE) → s.lineOk t pl = true → (∀ c ∈ y.claims, c.bank ≠ pl / 1024) →
    Completes (.instructionFetch t th line) s0 fun u => OnlyTile t s u ∧
      (u.thr t th).fetch.head? = some (line, s.bytes (padAddr t (64 * pl)) 64) ∧
      (u.thr t th).fetch.length ≤ 2 ∧ (u.thr t th).st = (s.thr t th).st ∧
      (u.thr t th).loops = holdLine line (s.bytes (padAddr t (64 * pl)) 64) (s.thr t th).loops ∧ (u.thr t th).pc = (s.thr t th).pc ∧
      SameS (s.thr t th) (u.thr t th)) ∧
  ∀ (s0 : State) (src : Writer) (t : TileIx) (th : ThreadIx), Reaches src t s0 →
    let s := s0.carried src t
    (Completes (.thrHalt src t th) s0 fun u => OnlyTile t s u ∧ u.thr t th = { s.thr t th with st := .halted, loops := [] } ∧
      (∀ n, n ≠ th.val → u.thr t n = s.thr t n) ∧ sget none (u.tile t).starts th = none ∧
      (u.tile t).flip = if th.val = 0 then none else (s.tile t).flip) ∧
    ((s.thr t th).st = .halted → Completes (.thrStart src t th) s0 fun u => OnlyTile t s u ∧ (u.tile t).thr = (s.tile t).thr ∧
      sget none (u.tile t).starts th = some (BitVec.ofNat 15 ((s.tile t).fld .THR_CTL [th] F.THR_CTL_ENTRY)))

/-- CSRR reads what the register at its offset shows, by the access codes of its fields; one at an offset that names no register reads zero
and sets CFG_REJ; a CSRW's write takes effect in the next fc: on a register that no rule guards field by field, at an offset that names no
register with CFG_REJ alone. -/
def Obligations.CsrInstructionsReachTheTileWindow : Prop :=
  (∀ (s0 : State) (t : TileIx) (th : ThreadIx) (w : BitVec 26), Ready s0 t th →
    let s := s0.atIssue t th
    let x := s.thr t th
    let y := s.tile t
    let o := fADDR x w % 65536
    (∀ r i, Reg.tileAt o = some (r, i) → r ≠ .EP_ADMIT →
      Completes (.csrr t th w) s0 fun u => Retires s u t th (fRD w) (readFields r.info.flds (y.view (s.fc t) r i))) ∧
    (Reg.tileAt o = none →
      Completes (.csrr t th w) s0 fun u => OnlyTile t s u ∧ WritesS (fRD w) 0 x (u.thr t th) ∧ AtNext x (u.thr t th) ∧
        (u.tile t).fld .PAD_ERR [] F.PAD_ERR_CFG_REJ = 1) ∧
    Completes (.csrw t th w) s0 fun u => OnlyTile t s u ∧ SameS x (u.thr t th) ∧ AtNext x (u.thr t th) ∧ (u.thr t th).st = .run ∧
      (u.tile t).regs = y.regs ∧ (u.tile t).csrw = y.csrw ++ [(s.fc t + 1, th.val, o, x.sreg (fRD w))]) ∧
  ∀ (s : State) (t : TileIx) (th : ThreadIx) (f o : Nat) (v : W64), (s.tile t).csrw = [(f, th.val, o, v)] → f ≤ s.fc t →
    let y := s.tile t
    let u := s.csrLand t
    (u.tile t).csrw = [] ∧
    (Reg.tileAt o = none → OnlyTile t s u ∧ (u.tile t).fld .PAD_ERR [] F.PAD_ERR_CFG_REJ = 1 ∧
      TileRegsBut [Reg.loc .PAD_ERR []] y (u.tile t)) ∧
    ∀ r i, Reg.tileAt o = some (r, i) → (r = .RING_GAUGE ∨ r = .GWDOG ∨ r = .PAD_CNT ∨ r = .CORE_CNT ∨ r = .CORE_FLT) → y.raised = [] →
      OnlyTile t s u ∧ (u.tile t).reg r i = writeFields r.info.flds (y.reg r i) v ∧ TileRegsBut [r.loc i] y (u.tile t)

/-- What a write leaves in a register, field by field, for every register of the maps: RW, RWS and STG fields take the value, W1C bits clear
where 1 is written, RO and WO fields store nothing; a W1C field that hardware has set in the cycle of the write stays set, whatever is
written. -/
def Obligations.RegisterFieldsFollowTheirAccessCodes : Prop :=
  ∀ (r : Reg) (i : List Nat) (l : List (Nat × Nat)) (old v : W64), ∀ f ∈ r.info.flds,
    let w := writeFields r.info.flds old v
    (f.get w = match f.acc with
      | .rw | .rws | .stg => f.get v
      | .w1c => f.get old &&& (2 ^ f.width - 1 - f.get v)
      | _ => f.get old) ∧
    f.get (keepRaised l r i old w) = if f.acc = .w1c ∧ (r.loc i, f.lo) ∈ l then f.get old else f.get w

/-- Bits that no field of a register covers read zero, and what is written to them changes nothing. -/
def Obligations.ReservedBitsReadZeroAndIgnoreWrites : Prop :=
  ∀ (r : Reg) (i : Nat), i < 64 → (∀ f ∈ r.info.flds, ¬(f.lo ≤ i ∧ i ≤ f.hi)) →
    (∀ w : W64, (readFields r.info.flds w).getLsbD i = false) ∧
    ∀ old v : W64, writeFields r.info.flds old (v ^^^ (1#64 <<< i)) = writeFields r.info.flds old v

/-- A write at a BAR0 offset by the management core while it runs, or by the host's operator session over a trained link from READY on: a chip
register that no rule guards takes what the access codes give and no other register changes, a staged one only from the management core
and while no commit is pending; a register of a tile's window that no rule guards takes it from the tile's owner; an offset that names no
register is an error status or an unsupported request; a sender without a session counts in UR_CNT. -/
def Obligations.RegisterWritesReachTheChip : Prop :=
  ∀ (s : State) (src : Writer) (off width : Nat) (v : W64),
    let up := match src with
      | .host _ => s.hostUp = true ∧ s.serving = true
      | .mgmt => s.thermTrip = false
      | _ => False
    let may := up ∧ ∀ req, src = .host req → s.isOperator req = true
    let takes := fun (r : Reg) (i : List Nat) (u : State) => OnlyRegs s u ∧ RegsBut [r.loc i] s u ∧
      u.reg r i = keepRaised s.raised r i (s.reg r i) (writeFields r.info.flds (s.reg r i) v)
    let guarded : List Reg := [.TWR_CFG, .TWR_INJ, .GUN_CHAN, .GUN_CTL, .GUN_VCFG, .PORT_CTL, .EP_ID, .EP_SH, .EP_DIG, .EP_CTL, .HEAT_TBL,
      .HEAT_CTL, .HEAT_QRY, .RCPT_CFG, .RCPT_PROG, .POLDER_CTL, .COMMIT_CTL, .REG_PWR, .AVS_SET, .FRZ_CTL, .TB_SET, .TB_CTL, .CAL, .UIO_TGT,
      .THERM_CFG, .PWR_CFG, .DOM_REQ]
    s.frzState ≠ 3 →
    (∀ r i, may → bar0At off width = some (.chip r i) → r ∉ guarded → stgFields r = [] → (mgmtOnly (r.loc i) = true → src = .mgmt) →
      Completes (.registerWrite src off width v) s (takes r i)) ∧
    (∀ r i, src = .mgmt → up → bar0At off width = some (.chip r i) → r ∉ guarded → r ≠ .POLICY → stgFields r ≠ [] →
      (s.commit = none → Completes (.registerWrite src off width v) s (takes r i)) ∧
      (s.commit ≠ none → Completes (.registerWrite src off width v) s fun u => OnlyRegs s u ∧ RegsBut [Reg.loc .COMMIT_STAT []] s u ∧
        u.fld .COMMIT_STAT [] F.COMMIT_STAT_CFG_REJ = 1)) ∧
    (∀ t r i, up → bar0At off width = some (.tile t r i) → Reaches src t s → (r = .RING_GAUGE ∨ r = .GWDOG) →
      let m := s.carried src t
      Completes (.registerWrite src off width v) s fun u => OnlyTile t m u ∧ TileRegsBut [r.loc i] (m.tile t) (u.tile t) ∧
        (u.tile t).reg r i = writeFields r.info.flds ((m.tile t).reg r i) v) ∧
    (up → bar0At off width = none → Completes (.registerWrite src off width v) s fun u => u.tiles = s.tiles ∧ SameMem s u ∧
      (∀ req, src = .host req → OnlyRegs s u ∧ u.fld .HOST_STAT [] F.HOST_STAT_UR_CNT =
        min (s.fld .HOST_STAT [] F.HOST_STAT_UR_CNT + 1) (2 ^ F.HOST_STAT_UR_CNT.width - 1)) ∧
      (src = .mgmt → u.regs = s.regs ∧ u.out = s.out ++ [.mgmt false []])) ∧
    ∀ r i req, src = .host req → up → bar0At off width = some (.chip r i) → s.isOperator req = false →
      Completes (.registerWrite src off width v) s fun u => OnlyRegs s u ∧ RegsBut [Reg.loc .HOST_STAT []] s u ∧
        u.fld .HOST_STAT [] F.HOST_STAT_UR_CNT = min (s.fld .HOST_STAT [] F.HOST_STAT_UR_CNT + 1) (2 ^ F.HOST_STAT_UR_CNT.width - 1)

/-- THR_BND of a thread is written only while the thread is halted; a write at any other time is ignored and sets CFG_REJ. -/
def Obligations.BoundsWindowsChangeOnlyWhileHalted : Prop :=
  ∀ (s0 : State) (src : Writer) (t : TileIx) (th : ThreadIx) (v : W64), Reaches src t s0 →
    let s := s0.carried src t
    Completes (.thrBndWrite src t th v) s0 fun u => OnlyTile t s u ∧
      ((s.thr t th).st = .halted →
        (u.tile t).fld .THR_BND [th] F.THR_BND_BASE = v.toNat % 2 ^ 16 ∧
        (u.tile t).fld .THR_BND [th] F.THR_BND_LIMIT = v.toNat / 2 ^ 16 % 2 ^ 16 ∧
        (u.tile t).fld .THR_BND [th] F.THR_BND_EN = v.toNat / 2 ^ 32 % 2 ∧
        TileRegsBut [Reg.loc .THR_BND [th]] (s.tile t) (u.tile t)) ∧
      ((s.thr t th).st ≠ .halted → (u.tile t).reg .THR_BND [th] = (s.tile t).reg .THR_BND [th] ∧
        (u.tile t).fld .PAD_ERR [] F.PAD_ERR_CFG_REJ = 1 ∧ TileRegsBut [Reg.loc .PAD_ERR []] (s.tile t) (u.tile t))

/-- A write to CODE_CTL.ACTIVE, or to the register of the active bank, is performed only while every thread is halted; otherwise it is ignored
and sets CFG_REJ. A bank register in range whose bank is not active takes the write at any time. -/
def Obligations.CodeBanksChangeOnlyWhileHalted : Prop :=
  ∀ (s0 : State) (src : Writer) (t : TileIx) (v : W64), Reaches src t s0 →
    let s := s0.carried src t
    let y := s.tile t
    let halted := ∀ n < 16, (y.th n).st = .halted
    let rejected := fun (u : State) => OnlyTile t s u ∧ TileRegsBut [Reg.loc .PAD_ERR []] y (u.tile t) ∧
      (u.tile t).fld .PAD_ERR [] F.PAD_ERR_CFG_REJ = 1
    let fits := v.toNat / 2 ^ 16 % 2 ^ 10 + v.toNat % 2 ^ 6 ≤ 1024 ∧ v.toNat % 2 ^ 6 ≤ 32
    (halted → Completes (.codeCtlWrite src t v) s0 fun u => OnlyTile t s u ∧
      (u.tile t).fld .CODE_CTL [] F.CODE_CTL_ACTIVE = v.toNat % 2 ∧ TileRegsBut [Reg.loc .CODE_CTL []] y (u.tile t)) ∧
    (¬halted → Completes (.codeCtlWrite src t v) s0 rejected) ∧
    ∀ b : Bool, let r : Reg := if b then .CODE_B else .CODE_A
      let active := y.fld .CODE_CTL [] F.CODE_CTL_ACTIVE = if b then 1 else 0
      (fits → (halted ∨ ¬active) → Completes (.codeBankWrite src t b v) s0 fun u => OnlyTile t s u ∧
        (u.tile t).fld r [] F.CODE_A_BASE = v.toNat / 2 ^ 16 % 2 ^ 10 ∧ (u.tile t).fld r [] F.CODE_A_SIZE = v.toNat % 2 ^ 6 ∧
        TileRegsBut [r.loc []] y (u.tile t)) ∧
      (¬fits ∨ (¬halted ∧ active) → Completes (.codeBankWrite src t b v) s0 rejected)

/-- PAD_PHASE takes a write of the management core alone. A disabled ring takes its configuration and, where EN is set and the geometry is
legal, starts empty; with illegal geometry EN stays 0 and CFG_REJ is set; an enabled ring takes only a write that clears EN. A host's
release advances HEAD by its count; it sets UND where HOSTR is 0 or the ring holds fewer entries, BOUNDS where the ring is disabled or the
writer is not its consumer. The service port reads and writes banks 56 to 63 of a pad outside RUN and QUARANTINE for the management core;
an access in RUN, in QUARANTINE, outside those banks or misaligned is refused with SVC_REJ and an error status and changes no memory; a
ring append that meets its conditions stores one entry at the tail, one on a full ring is dropped with OVR, one that does not meet them is
refused with SVC_REJ. -/
def Obligations.RingsAreConfiguredAndReached : Prop :=
  (∀ (s0 : State) (src : Writer) (t : TileIx) (n : RingIx) (v : W64), Reaches src t s0 →
     let s := s0.carried src t
     let y := s.tile t
     let old := y.ring n
     let w := writeFields Reg.RING_CFG.info.flds old v
     let on := fun (c : W64) => F.RING_CFG_EN.get c = 1
     let rej := fun (u : State) => (u.tile t).fld .PAD_ERR [] F.PAD_ERR_CFG_REJ = 1
     let c := F.RING_HREL_COUNT.get v
     let hostr := F.RING_CFG_HOSTR.get old = 1
     let yours := isHost src = true ∧ on old ∧ F.RING_CFG_CONS.get old = 8
     let und := fun (u : State) => OnlyTile t s u ∧ (u.tile t).head n = y.head n ∧ (u.tile t).fld .RING_STAT [n] F.RING_STAT_UND = 1
     (Completes (.padPhaseWrite src t v) s0 fun u => OnlyTile t s u ∧
       (u.tile t).fld .PAD_PHASE [] F.PAD_PHASE_PHASE = if isMgmt src then v.toNat % 4 else y.fld .PAD_PHASE [] F.PAD_PHASE_PHASE) ∧
     (¬on old → ¬on v → Completes (.ringCfgWrite src t n v) s0 fun u => OnlyTile t s u ∧ (u.tile t).ring n = w ∧
       TileRegsBut [Reg.loc .RING_CFG [n]] y (u.tile t)) ∧
     (¬on old → on v → ringGeom w = true → Completes (.ringCfgWrite src t n v) s0 fun u => OnlyTile t s u ∧ (u.tile t).ring n = w ∧
       on ((u.tile t).ring n) ∧ (u.tile t).head n = 0 ∧ (u.tile t).tail n = 0 ∧ (u.tile t).occ n = 0) ∧
     (¬on old → on v → ringGeom w = false → Completes (.ringCfgWrite src t n v) s0 fun u => OnlyTile t s u ∧
       ¬on ((u.tile t).ring n) ∧ rej u) ∧
     (on old → ¬on v → Completes (.ringCfgWrite src t n v) s0 fun u => OnlyTile t s u ∧ ¬on ((u.tile t).ring n)) ∧
     (on old → on v → Completes (.ringCfgWrite src t n v) s0 fun u => OnlyTile t s u ∧ (u.tile t).ring n = old ∧ rej u) ∧
     (hostr → c ≠ 0 → yours → c ≤ y.avail n → y.head n < ringN old → c ≤ ringN old → ringGeom old = true →
       Completes (.ringHrel src t n v) s0 fun u => OnlyTile t s u ∧ (u.tile t).head n = (y.head n + c) % ringN old ∧
         (u.tile t).tail n = y.tail n) ∧
     (hostr → c ≠ 0 → yours → y.avail n < c → Completes (.ringHrel src t n v) s0 und) ∧
     (¬hostr → Completes (.ringHrel src t n v) s0 und) ∧
     (hostr → c = 0 → Completes (.ringHrel src t n v) s0 fun u => u = s) ∧
     (hostr → c ≠ 0 → ¬yours → Completes (.ringHrel src t n v) s0 fun u => OnlyTile t s u ∧ (u.tile t).head n = y.head n ∧
       (u.tile t).fld .PAD_ERR [] F.PAD_ERR_BOUNDS = 1)) ∧
  (let seam := [Reg.loc .SEAM_STAT []]
   let rejected := fun (s : State) (t : TileIx) (u : State) => SameMem s u ∧ u.out = s.out ++ [.mgmt false []] ∧
     (u.tile t).fld .PAD_ERR [] F.PAD_ERR_SVC_REJ = 1 ∧ (u.tile t).fld .PAD_CNT [] F.PAD_CNT_SVC_REJ_CNT =
       min ((s.tile t).fld .PAD_CNT [] F.PAD_CNT_SVC_REJ_CNT + 1) (2 ^ F.PAD_CNT_SVC_REJ_CNT.width - 1)
   (∀ (s0 : State) (t : TileIx) (a n : Nat),
     let s1 := s0.routeFree 1171 t
     let s := State.freeSlot t (a / 64) 9 tries s1
     let ok := (s1.tile t).fld .PAD_PHASE [] F.PAD_PHASE_PHASE ≠ 0 ∧ s1.dikeTile 1171 0 t = true ∧ 0x380000 ≤ a ∧ a < 0x400000 ∧
       n ∈ [1, 2, 4, 8] ∧ a % n = 0
     (ok → s.lineOk t (a / 64) = true →
       (Completes (.servicePortAccess t a n none) s0 fun u => u.out = s.out ++ [.mgmt true (s.bytes (padAddr t a) n)] ∧ SameMem s u ∧
         u.tiles = s.tiles ∧ RegsBut seam s u) ∧
       ∀ v, (s.tile t).liveLine (a / 64) = false → Completes (.servicePortAccess t a n (some v)) s0 fun u =>
         u.out = s.out ++ [.mgmt true []] ∧ u.bytes (padAddr t a) n = natLe n v.toNat ∧ SameMemBut (padAddr t a) n s u ∧
         u.tiles = s.tiles ∧ RegsBut seam s u) ∧
     (s1.clocked t = false → s = s1) ∧
     (¬ok → ∀ w, Completes (.servicePortAccess t a n w) s0 (rejected s1 t))) ∧
   ∀ (s0 : State) (t : TileIx) (p : Bytes),
     let s := s0.route ⟨t, 1171, 0, 7, (p.length + 31) / 32 - 1⟩ id
     let n := (byteAt p 0).toNat
     let y := s.tile t
     let a := y.entryAddr n (y.tail n)
     let k := ringEsz (y.ring n)
     (∀ m, s.appendOk t n p = true → y.ringFull n = false → s.freeStore t a (slice p 32 k) 7 16 = .ok () m →
       Completes (.ringAppend t p) s0 fun u => (u.tile t).reg .RING_PTR [n] = ((m.tile t).advTail n 1).reg .RING_PTR [n] ∧
         SameMem m u ∧ u.out = m.out ++ [.mgmt true []] ∧ RegsBut seam m u) ∧
     (s.appendOk t n p = true → y.ringFull n = false → s.clocked t = false → y.tail n < ringN (y.ring n) → ringGeom (y.ring n) = true →
       (∀ l ∈ y.entryLines n (y.tail n), y.liveLine l = false ∧ s.lineOk t l = true) →
       Completes (.ringAppend t p) s0 fun u => (u.tile t).tail n = (y.tail n + 1) % ringN (y.ring n) ∧
         u.bytes (padAddr t a) k = slice p 32 k ∧ SameMemBut (padAddr t a) k s u ∧ u.out = s.out ++ [.mgmt true []] ∧ RegsBut seam s u) ∧
     (s.appendOk t n p = true → y.ringFull n = true → Completes (.ringAppend t p) s0 fun u => SameMem s u ∧
       (u.tile t).tail n = y.tail n ∧ (u.tile t).fld .RING_STAT [n] F.RING_STAT_OVR = 1) ∧
     (s.appendOk t n p = false → Completes (.ringAppend t p) s0 (rejected s t)))

/-- A layer is mapped out only while the region has no polder and another layer stays; an injection is armed only with every tile of the
region in TEST and existing symbols; both set CFG_REJ otherwise. The scrubber reads the line at its position in a reserved fc of the
line's vault, goes line by line through the capacity and counts its passes; a line with one wrong symbol is corrected, counted and waits
for its write-back in the next reserved slot, which makes the stored symbols right; the fix queue reads its head and rewrites it where it
still needs correction. -/
def Obligations.TowersAreGuardedAndRepaired : Prop :=
  (∀ (s : State) (src : Writer) (r : RegionIx) (v : W64), ReachesChip src s →
     let rej := fun (u : State) => OnlyRegs s u ∧ RegsBut [Reg.loc .TWR_ERR [r]] s u ∧ u.fld .TWR_ERR [r] F.TWR_ERR_CFG_REJ = 1
     let pres := F.TWR_CFG_PRES.get v
     let test := (∀ t ∈ tilesOf r, (s.tile t).fld .PAD_PHASE [] F.PAD_PHASE_PHASE = 2) ∧ F.TWR_INJ_SYMA.get v ≤ 131 ∧
       (F.TWR_INJ_TWO.get v = 0 ∨ F.TWR_INJ_SYMB.get v ≤ 131)
     (s.polderOf r = none → pres ≠ 0 → Completes (.twrCfgWrite src r v) s fun u => u.fld .TWR_CFG [r] F.TWR_CFG_PRES = pres ∧
       (pres ≠ s.fld .TWR_CFG [r] F.TWR_CFG_PRES → (u.tower r).stale = true) ∧ RegsBut [Reg.loc .TWR_CFG [r]] s u ∧ SameMem s u ∧
       u.tiles = s.tiles) ∧
     (s.polderOf r ≠ none ∨ pres = 0 → Completes (.twrCfgWrite src r v) s rej) ∧
     (F.TWR_INJ_ARM.get v = 0 → Completes (.twrInjWrite src r v) s fun u => OnlyRegs s u ∧ u.reg .TWR_INJ [r] = 0 ∧
       RegsBut [Reg.loc .TWR_INJ [r]] s u) ∧
     (F.TWR_INJ_ARM.get v = 1 → test → Completes (.twrInjWrite src r v) s fun u => OnlyRegs s u ∧
       (∀ f ∈ (Reg.info .TWR_INJ).flds, f.get (u.reg .TWR_INJ [r]) = f.get v) ∧
       RegsBut [Reg.loc .TWR_INJ [r]] s u) ∧
     (F.TWR_INJ_ARM.get v = 1 → ¬test → Completes (.twrInjWrite src r v) s rej)) ∧
  (∀ (s : State) (r : RegionIx), s.isFrozen = false →
     let at_ := fun (z : State) (w : Nat × Nat × Bool) => match z.svcFc r with | some (d, _) => z.toFc d w.1 | none => z
     let fixed := fun (m u : State) (w : Nat × Nat × Bool) => SameMem m u ∧ (u.tower r).wb = (m.tower r).wb.erase w ∧
       sget [] u.symErr (symKey r w.2.1) = [] ∧ (∀ k, k ≠ symKey r w.2.1 → sget [] u.symErr k = sget [] m.symErr k) ∧
       u.fld .TWR_CNT [r] F.TWR_CNT_SCRUB_FIX_CNT = min (m.fld .TWR_CNT [r] F.TWR_CNT_SCRUB_FIX_CNT + 1) (2 ^ F.TWR_CNT_SCRUB_FIX_CNT.width - 1)
     (s.xtalOff = false →
       let n := if s.scrubDue r then s else s.nextPeriod
       let m := match n.scrubLine r with | some p => n.lineSlot r p 0 | none => n
       let pos := m.fld .TWR_SCRUB [r] F.TWR_SCRUB_POS
       let pass := m.fld .TWR_SCRUB [r] F.TWR_SCRUB_PASS
       let moved := fun (u : State) => u.fld .TWR_SCRUB [r] F.TWR_SCRUB_POS = (if pos + 1 < m.twrLines r then pos + 1 else 0) ∧
         u.fld .TWR_SCRUB [r] F.TWR_SCRUB_PASS = (if pos + 1 < m.twrLines r then pass else (pass + 1) % 2 ^ F.TWR_SCRUB_PASS.width)
       ∀ p, m.physLine r pos = some p →
         (sget [] m.symErr (symKey r p) = [] → Completes (.scrubLine r) s fun u => moved u ∧ SameMem m u ∧ u.tiles = m.tiles ∧
           u.symErr = m.symErr ∧ (u.tower r).wb = (m.tower r).wb ∧ RegsBut [Reg.loc .TWR_SCRUB [r]] m u) ∧
         ((sget [] m.symErr (symKey r p)).length = 1 → Completes (.scrubLine r) s fun u => moved u ∧ SameMem m u ∧
           u.fld .TWR_ERR [r] F.TWR_ERR_CE = 1 ∧ (u.tower r).wb = (m.tower r).wb ++ [(m.wbFc r, p, false)])) ∧
     (∀ w, (s.tower r).wb.find? (fun w => !w.2.2) = some w → ((at_ s w).tower r).wb.contains w = true →
       Completes (.scrubWriteback r) s (fixed (at_ s w) · w)) ∧
     (∀ w, s.fld .TWR_CFG [r] F.TWR_CFG_RET = 0 →
       let n := match s.fixLine r with | some p => (s.lineSlot r p 1).fixRead r | none => s
       (n.tower r).wb.find? (fun w => w.2.2) = some w → ((at_ n w).tower r).wb.contains w = true →
       Completes (.fixQueueWriteback r) s fun u => fixed (at_ n w) u w ∧ (u.tower r).fixq = ((at_ n w).tower r).fixq.erase w.2.1) ∧
     ∀ p, s.fixLine r = some p →
       ((sget [] s.symErr (symKey r p)).length = 1 → ((s.fixRead r).tower r).wb = (s.tower r).wb ++ [(s.wbFc r, p, true)]) ∧
       ((sget [] s.symErr (symKey r p)).length ≠ 1 → ((s.fixRead r).tower r).fixq = (s.tower r).fixq.erase p ∧
         ((s.fixRead r).tower r).wb = (s.tower r).wb))

/-- LOADW, STREAM and DRAIN begin in the fc in which R120 lets them, after their checks: LOADW from the pad has its areas to read, one with
the expander the block's first five lines; STREAM and DRAIN join the running commands; the unit is taken for the interval of the command.
A line that LOADW reads in its fc is held for its plane, and enters it as the line of its place, the other lines staying. -/
def Obligations.MatrixCommandsBegin : Prop :=
  (∀ (s : State) (t : TileIx) (q : QCmd) (rest : List QCmd) (op : Nat), Due (mxeBeginDue t op) t s →
    let m := s.atPhase (mxeBeginDue t op) t 13
    let b := m.fc t
    let x := (m.tile t).mxe
    m.clockOn t = true → (m.tile t).mxq = q :: rest → x.stopped = false → x.beginFc q ≤ b → q.w1 63 60 = op →
    (op = 1 → loadwLegal q = true → (m.tile t).badLine q.th (loadwLines q) = none →
      let ex := decide (q.w1 53 53 = 1)
      let busy := if q.w1 53 53 = 1 then 21 else (loadwLines q).length
      Completes (.loadw t) s fun v => OnlyTile t m v ∧ (v.tile t).mxq = rest ∧
        (v.tile t).mxe.loads = x.loads ++
          [⟨q, b, if q.w1 53 53 = 1 then lineRun (q.w0 15 0) 5 else loadwLines q, busy, [], 0, ex, none⟩] ∧
        (v.tile t).mxe.loadFree = b + busy ∧ (v.tile t).mxe.nextBegin = b + 1) ∧
    (op = 2 → let pl := x.pl (q.w1 55 55)
      streamLegal q pl = true → pairOk pl.fmt (q.w1 59 56) = true →
      (m.tile t).badSpan q.th (streamSpans q (kEff (q.w1 59 56) pl.sp)) = none →
      Completes (.stream t) s fun v => OnlyTile t m v ∧ (v.tile t).mxq = rest ∧
        (v.tile t).mxe.streams = x.streams ++ [⟨q, b, 0, 0, b, windowZero q b, [], [], none⟩] ∧
        (v.tile t).mxe.streamFree = b + pOf (q.w1 59 56) * (q.w1 39 16 + 1) + q.w1 52 52 ∧ (v.tile t).mxe.nextBegin = b + 1) ∧
    (op = 3 → q.w0 63 26 = 0 → q.w0 15 10 = 0 → q.w1 59 54 = 0 → q.w1 52 50 = 0 → q.w1 44 0 = 0 →
      Completes (.drain t) s fun v => OnlyTile t m v ∧ (v.tile t).mxq = rest ∧
        (v.tile t).mxe.streams = x.streams ++ [⟨q, b, 0, 0, b, [], [], [], none⟩] ∧
        (v.tile t).mxe.streamFree = b + q.w0 25 16 + 1 ∧ (v.tile t).mxe.nextBegin = b + 1)) ∧
  (∀ (s : State) (t : Nat) (l : LoadRun), let line := l.lines.getD l.got.length 0
    (s.tile t).taken (line / 1024) = false → s.lineOk t line = true → l.q.w1 53 53 = 0 →
    SameMem s (s.loadRead t l) ∧ ((s.loadRead t l).tile t).mxe.loads = (s.tile t).mxe.loads.map fun k =>
      if k.q = l.q then { l with got := l.got ++ [(s.fc t, s.bytes (padAddr t (64 * line)) 64)] } else k) ∧
  ∀ (p : Plane) (f sp j : Nat) (b : Bytes), b.length = 64 →
    slice (p.enter f sp j b).data (64 * j) 64 = b ∧ (p.enter f sp j b).fmt = f ∧ (p.enter f sp j b).sp = sp ∧
    ∀ k, k ≠ j → 64 * (j + 1) ≤ p.data.length → slice (p.enter f sp j b).data (64 * k) 64 = slice p.data (64 * k) 64

/-- A row of a DRAIN issues; a row of a STREAM without window and scales issues with the activations of its four streams, read in its fc where
their banks are free; both are counted and stand in flight. The totals of a row are, per stream and column, those of its plane's column
over the activations. The oldest row in flight writes the four accumulator rows of its offset, and no other memory; with EMIT, or of a
DRAIN, its tile joins the finished-tile ring one fc later; a LOADW without a mismatch, and a STREAM or DRAIN whose rows are written,
complete: counted, gone from the running commands, the gauge add made; a plane that is loaded shows in FIN whether all its weights are
finite. -/
def Obligations.MatrixRowsIssueWriteAndComplete : Prop :=
  ((∀ (s : State) (t : TileIx) (r : StreamRun), Due (rowIssueDue t) t s →
     let m := s.atPhase (rowIssueDue t) t 15
     let x := (m.tile t).mxe
     let q := r.q
     let off := r.offset r.issued
     let a := q.w1 59 56
     m.clockOn t = true → x.streams.find? StreamRun.active = some r → r.need = [] → r.issueFc r.issued ≤ m.fc t →
     (∀ v ∈ x.streams, v.q = q → v = r) →
     let counted := fun u : State => SameMem m u ∧
       (u.tile t).fld .MXE_ROWS [] F.MXE_ROWS_ROWS = ((m.tile t).fld .MXE_ROWS [] F.MXE_ROWS_ROWS + 1) % 2 ^ F.MXE_ROWS_ROWS.width
     (q.w1 63 60 = 3 → Completes (.mxeRowIssue t) s fun u => counted u ∧
       (u.tile t).mxe.rows = x.rows ++ [⟨q, m.fc t, off, some [], [], [], 1⟩]) ∧
     (q.w1 63 60 = 2 → q.w1 52 52 = 0 → isMx a = false → pOf a = 1 → (∀ w ∈ x.rows, w.q = q → w.acts.isSome = true) →
       let k := kEff a (x.pl (q.w1 55 55)).sp
       let ls := fun (i : Nat) => (List.range (rowLines a k)).map fun j => actLine q i r.issued j
       let all := (List.range 4).flatMap ls
       (∀ l ∈ all, m.lineOk t l = true ∧ (m.tile t).taken (l / 1024) = false) → (all.map (· / 1024)).Nodup →
       Completes (.mxeRowIssue t) s fun u => counted u ∧ (u.tile t).mxe.rows = x.rows ++ [⟨q, m.fc t, off,
         some ((List.range 4).map fun i => ((ls i).flatMap fun l => m.bytes (padAddr t (64 * l)) 64, [])), [], [], 0⟩])) ∧
   ∀ (x : Mxe) (w : RowRun) (acts : List (Bytes × Bytes)), w.acts = some acts → isMx (w.q.w1 59 56) = false →
     x.rowSums w = acts.map fun d => (List.range 32).map fun c => (x.pl (w.q.w1 55 55)).dot c fun e =>
       decodeElem (w.q.w1 59 56) (elemAt d.1 (elemBits (w.q.w1 59 56)) e)) ∧
  ((∀ (s : State) (t : TileIx) (r : RowRun) (rs : List RowRun), Due (rowWriteDue t false) t s →
     let m := s.atPhase (rowWriteDue t false) t 11
     m.clockOn t = true → (m.tile t).mxe.rows = r :: rs → r.stage = 2 → r.t + 13 ≤ m.fc t → (∀ v ∈ rs, m.fc t < v.t + 13 ∧ v.stage ≤ 2 ∧ v ≠ r) →
     r.q.w1 63 60 = 2 → r.q.w1 53 53 = 0 → r.sums.length = 4 → (∀ x ∈ r.sums, x.length = 32) → r.off < 1024 →
     Completes (.mxeRowWrite t) s fun u =>
       (∀ i < 4, u.bytes (accAddr t (i * 1024 + r.off)) 128 = ((r.sums.getD i []).zipIdx).flatMap fun e => natLe 4
         (if r.q.w1 54 54 = 1 then e.1.add (f32 (BitVec.ofNat 32 (leNat (slice (r.old.getD i []) (4 * e.2) 4)))) else e.1).result.toNat) ∧
       (∀ a, (∀ i < 4, ¬(accAddr t (i * 1024 + r.off) ≤ a ∧ a < accAddr t (i * 1024 + r.off) + 128)) → u.byte a = m.byte a)) ∧
   (∀ (s : State) (t : TileIx) (r : RowRun) (rs : List RowRun),
     let n := s.engine t 12 (rowWriteDue t false)
     Due (rowWriteDue t true) t n →
     let m := n.atPhase (rowWriteDue t true) t 11
     m.clockOn t = true → (m.tile t).mxe.rows = r :: rs → r.stage = 3 → r.t + 14 ≤ m.fc t → (∀ v ∈ rs, v.stage ≤ 2) →
     (m.tile t).mxe.ftrStart < 32 →
     Completes (.mxeRowWrite t) s fun u => (u.tile t).mxe.ftr = (m.tile t).mxe.ftr ++
       [(if r.q.w1 63 60 = 3 then r.old else r.result).flatten]) ∧
   (∀ (s : State) (t : TileIx) (l : LoadRun) (ls : List LoadRun), Due (mxeDoneDue t true) t s →
     let m := s.atPhase (mxeDoneDue t true) t 12
     let ends := fun k : LoadRun => decide (k.done ≤ m.fc t) && !k.more && !k.hdr
     m.clockOn t = true → (m.tile t).mxe.loads = l :: ls → ends l = true → (∀ k ∈ ls, ends k = false) → l.mism = none →
     (∀ r ∈ (m.tile t).mxe.streams, r.written = r.total → m.fc t < r.done) → (m.tile t).mxe.bad = none →
     Completes (.mxeComplete t true) s fun u => OnlyTile t m u ∧ (u.tile t).mxe.loads.map LoadRun.q = ls.map LoadRun.q ∧
       ((u.tile t).mxe.pl (l.q.w1 52 52)).fin = ((u.tile t).mxe.pl (l.q.w1 52 52)).finite ∧
       (u.tile t).fld .MXE_CNT [] F.MXE_CNT_CMD_CNT = ((m.tile t).fld .MXE_CNT [] F.MXE_CNT_CMD_CNT + 1) % 2 ^ F.MXE_CNT_CMD_CNT.width ∧
       (u.tile t).gpend = (m.tile t).gpend ++ if l.q.w1 51 51 = 1 then [.add (l.q.w1 50 47) 1 false] else []) ∧
   ∀ (s : State) (t : TileIx) (r : StreamRun) (rs : List StreamRun), Due (mxeDoneDue t false) t s →
     let m := s.atPhase (mxeDoneDue t false) t 12
     let ends := fun k : StreamRun => decide (k.written = k.total) && decide (k.done ≤ m.fc t)
     m.clockOn t = true → (m.tile t).mxe.streams = r :: rs → ends r = true → (∀ k ∈ rs, ends k = false) →
     (∀ l ∈ (m.tile t).mxe.loads, l.more = true ∨ l.hdr = true ∨ m.fc t < l.done) → (m.tile t).mxe.bad = none →
     Completes (.mxeComplete t false) s fun u => OnlyTile t m u ∧ (u.tile t).mxe.streams = rs ∧
       (u.tile t).fld .MXE_CNT [] F.MXE_CNT_CMD_CNT = ((m.tile t).fld .MXE_CNT [] F.MXE_CNT_CMD_CNT + 1) % 2 ^ F.MXE_CNT_CMD_CNT.width ∧
       (u.tile t).gpend = (m.tile t).gpend ++ if r.q.w1 49 49 = 1 then [.add (r.q.w1 48 45) 1 false] else [])

/-- Every vector command whose operation stands at the head of the queue and passes its checks begins: it leaves the queue, joins the running
commands with no step done, and the engine is taken for as many intervals as it has steps. -/
def Obligations.VectorCommandsBegin : Prop :=
  ∀ (s : State) (t : TileIx) (q : QCmd) (rest : List QCmd),
    let begins := fun (op : Nat) (imm : Nat → Bool) (c : Instr) => Due (vxeBeginDue t op imm) t s →
      let m := s.atPhase (vxeBeginDue t op imm) t 16
      let x := m.tile t
      m.clockOn t = true → x.vxq = q :: rest → x.vxe.stopped = false → x.vxe.beginFc q ≤ m.fc t → q.vop = op → imm q.imm6 = true →
      vLegal q = true → x.vRingCheck q = none → x.badLine q.th q.vspans = none →
      Completes c s fun u => OnlyTile t m u ∧ (u.tile t).vxq = rest ∧
        (u.tile t).vxe = { x.vxe with run := x.vxe.run ++ [⟨q, m.fc t, 0, m.fc t, []⟩], free := m.fc t + q.vsteps * q.vcost }
    let always := fun op c => begins op anyImm c
    always 0x01 (.vadd t) ∧ always 0x02 (.vsub t) ∧ always 0x03 (.vmul t) ∧ always 0x04 (.vfma t) ∧ always 0x05 (.vmin t) ∧
    always 0x06 (.vmax t) ∧ always 0x07 (.vabs t) ∧ always 0x08 (.vneg t) ∧ always 0x09 (.vmov t) ∧ always 0x0A (.vsplat t) ∧
    always 0x0B (.vcmp t) ∧ always 0x10 (.viadd t) ∧ always 0x11 (.vand t) ∧ always 0x12 (.vor t) ∧ always 0x13 (.vxor t) ∧
    always 0x14 (.vshl t) ∧ always 0x15 (.vshr t) ∧ always 0x16 (.viota t) ∧ always 0x17 (.vitof t) ∧ always 0x18 (.vftoi t) ∧
    always 0x20 (.padd t) ∧ always 0x21 (.pmul t) ∧ always 0x22 (.pfma t) ∧ always 0x23 (.ppack t) ∧ always 0x24 (.punpk t) ∧
    always 0x30 (.vtr t) ∧ always 0x38 (.vred t) ∧ always 0x40 (.vtopk t) ∧ always 0x41 (.vslot t) ∧ always 0x42 (.vslotclr t) ∧
    always 0x43 (.vslotrd t) ∧ always 0x48 (.vrupd t) ∧ begins 0x50 (fun m => decide (m ≠ 1)) (.vdigOpen t) ∧
    begins 0x50 (fun m => decide (m = 1)) (.vdigClose t)

/-- A step of a lane operation with register operands: its results, lane by lane as Table 6-6 gives them, stand as a late effect on the active
lanes of the destination register, due the latency of the operation after the step; memory stays. -/
def Obligations.VectorStepsComputeTheirLanes : Prop :=
  ∀ (s : State) (t : TileIx) (r : VxeRun), Due (vxeStepDue t) t s →
    let q := r.q
    let m := s.atPhase (vxeStepDue t) t 18
    let x := (m.tile t).vxe
    let reg := fun (n step : Nat) => x.vec ((n + if step = 1 then r.k else 0) % 32)
    let a := reg (q.w1 37 33) q.vak
    let b := reg (q.w1 32 28) (q.w1 22 22)
    let c := reg (q.w1 27 23) (q.w1 21 21)
    let mask := x.mask (q.w1 13 11)
    m.clockOn t = true → x.run.find? VxeRun.more = some r → r.stepFc ≤ m.fc t →
    q.vak < 2 → q.vdk < 2 → a.length = 128 → b.length = 128 → c.length = 128 →
    let gives := fun (op : Nat) (f : Nat → W32 → W32 → W32 → W32) => q.vop = op → Completes (.vxeStep t) s fun u => OnlyTile t m u ∧
      ∃ l ∈ (u.tile t).late, l.due = m.fc t + 8 ∧ l.unit = 3 ∧ l.iss = m.fc t ∧ l.q = q ∧
        ∃ vals, l.act = .vreg ((q.w1 18 14 + if q.vdk = 1 then r.k else 0) % 32) mask vals ∧ vals.length = 128 ∧
          ∀ n < 128, vals.getD n 0 = f n (a.getD n 0) (b.getD n 0) (c.getD n 0)
    gives 0x01 (fun _ a b _ => fadd a b) ∧ gives 0x02 (fun _ a b _ => fsub a b) ∧
    gives 0x03 (fun _ a b _ => fmul a b) ∧ gives 0x04 (fun _ a b c => ffma a b c) ∧ gives 0x05 (fun _ a b _ => fmin a b) ∧
    gives 0x06 (fun _ a b _ => fmax a b) ∧ gives 0x07 (fun _ a _ _ => if isNan32 a then nan32 else a &&& 0x7FFFFFFF) ∧
    gives 0x08 (fun _ a _ _ => if isNan32 a then nan32 else a ^^^ 0x80000000) ∧ gives 0x09 (fun _ a _ _ => a) ∧ gives 0x0A (fun _ _ _ _ => BitVec.ofNat 32 (q.w0 31 0)) ∧
    gives 0x10 (fun _ a b _ => a + b) ∧ gives 0x11 (fun _ a b _ => a &&& b) ∧ gives 0x12 (fun _ a b _ => a ||| b) ∧
    gives 0x13 (fun _ a b _ => a ^^^ b) ∧ gives 0x16 (fun n _ _ _ => BitVec.ofNat 32 n) ∧
    (q.imm6 < 32 → gives 0x14 (fun _ a _ _ => a <<< q.imm6) ∧ gives 0x15 (fun _ a _ _ => a >>> q.imm6))

/-- A late result on a vector register takes the active lanes and leaves the others; m0 stays all ones; a command whose steps have all issued
completes its latency after the last: the registers due are written, it is counted and makes its gauge add. -/
def Obligations.VectorResultsLandAndCommandsComplete : Prop :=
  (∀ (x : Vxe) (n k : Nat) (lanes : BitVec 128) (vals : List W32), (x.vec n).length = 128 → vals.length = 128 →
    (∀ i < 128, ((x.setVec n lanes vals).vec n).getD i 0 = if lanes.getLsbD i then vals.getD i 0 else (x.vec n).getD i 0) ∧
    (k ≠ n → (x.setVec n lanes vals).vec k = x.vec k)) ∧
  (∀ (x : Vxe) (n : Nat) (lanes vals : BitVec 128), (x.setMask n lanes vals).mask 0 = BitVec.allOnes 128 ∧
    (n ≠ 0 → ∀ i < 128, ((x.setMask n lanes vals).mask n).getLsbD i = if lanes.getLsbD i then vals.getLsbD i else (x.mask n).getLsbD i)) ∧
  ∀ (s : State) (t : TileIx) (r : VxeRun) (rs : List VxeRun), Due (vxeDoneDue t) t s →
    let m := s.atPhase (vxeDoneDue t) t 19
    let x := m.tile t
    m.clockOn t = true → x.vxe.run = r :: rs → r.more = false → r.done ≤ m.fc t → (∀ v ∈ rs, v.more = true ∨ m.fc t < v.done) →
    (∀ l ∈ x.late, l.unit = 3 → l.q = r.q → l.isReg = true ∧ l.due ≤ m.fc t) → x.vxe.lost = none →
    Completes (.vxeComplete t) s fun u => OnlyTile t m u ∧
      (u.tile t).vxe = { (x.ripe (m.fc t) fun l => decide (l.unit = 3) && l.isReg).foldl Vxe.landReg x.vxe with run := rs } ∧
      (u.tile t).fld .VXE_CNT [] F.VXE_CNT_CMD_CNT = (x.fld .VXE_CNT [] F.VXE_CNT_CMD_CNT + 1) % 2 ^ F.VXE_CNT_CMD_CNT.width ∧
      (u.tile t).gpend = x.gpend ++ if r.q.w1 10 10 = 1 then [.add (r.q.w1 9 6) 1 false] else []

/-- Every transfer command whose code stands at the head of the queue and passes its checks begins on its channel, in a fc in which the
channel is free, and takes it for its interval. A step of AREAD reads its accumulator row and writes its two lines 6 fc later; one of
HTAKE takes the unit of its hop slot into its two lines at once; a command whose steps are done completes and is counted; a unit that
arrives for the tile on a free slot is held there. -/
def Obligations.TransferCommandsBeginAndMoveData : Prop :=
  (∀ (s : State) (t : TileIx) (q : QCmd) (rest : List QCmd),
     let ch := xChan t q
     let begins := fun (op : Nat) (c : Instr) => Due (xfeBeginDue t op) t s →
       let m := (s.atPhase (xfeBeginDue t op) t 0).coreFirst t
       let x := m.tile t
       let b := m.fc t
       m.clockOn t = true → x.xfq = q :: rest → x.xfe.stopped = false → x.xfeBeginFc t q ≤ b → x.xfe.run.any (XfeRun.next ch) = false →
       q.xop = op → xLegal t q = true → x.badLine q.th (xSpans q) = none →
       (q.xop ≤ 2 → 2 * (q.w1 25 0 + q.xn) ≤ m.twrLines (regionOf t)) →
       Completes c s fun u => OnlyTile t m u ∧ (u.tile t).xfq = rest ∧
         (u.tile t).xfe.run = x.xfe.run ++ [⟨ch, q, b, 0, q.xfirst b, b, [], []⟩] ∧ (u.tile t).xfe.nextBegin = b + 1 ∧
         sget 0 (u.tile t).xfe.free (chanNo ch) = b + q.xinterval b
     begins 1 (.tread t) ∧ begins 2 (.twrite t) ∧ begins 3 (.hsend t) ∧ begins 4 (.htake t) ∧ begins 5 (.aread t) ∧
     begins 6 (.awrite t) ∧ begins 7 (.icopy t)) ∧
  ((∀ (s : State) (t : TileIx) (c : XChan) (r : XfeRun), Due (xfeStepDue t c) t s → stepPhase c ≠ 6 →
     let m := s.atPhase (xfeStepDue t c) t (stepPhase c)
     let x := m.tile t
     let fc := m.fc t
     let q := r.q
     let l := q.pline r.j
     let row := m.bytes (accAddr t (q.arow r.j)) 128
     m.clockOn t = true → x.xfe.run.find? (XfeRun.next c) = some r → r.due ≤ fc → r.ch = xChan t q → q.w1 30 29 < 4 →
     (q.xop = 5 → x.mxe.accReading fc = false → x.taken (68 + q.arow r.j / 1024) = false → m.rowOk t (q.arow r.j) = true →
       Completes (.xfeStep t c) s fun u => OnlyTile t m u ∧
         (u.tile t).xfe.run = xStepped c (fun r => { r with j := r.j + 1, t := fc, due := fc + 1, got := [], idx := [] }) x.xfe.run ∧
         ∃ e ∈ (u.tile t).late, e.due = fc + 6 ∧
           e.act = .pad [(l, slice row 0 64, BitVec.allOnes 64), (l + 1024, slice row 64 64, BitVec.allOnes 64)]) ∧
     (∀ v, q.xop = 4 → (∀ k, k ≠ c → stepPhase k = 1 → x.xfe.run.find? (XfeRun.next k) = none) →
       sget none x.slots (q.w1 30 29) = some v → l + 1024 < 65536 →
       x.liveLine l = false → x.liveLine (l + 1024) = false → x.taken (l / 1024) = false → x.taken (l / 1024 + 1) = false →
       v.data.length = 128 →
       Completes (.xfeStep t c) s fun u => u.bytes (padAddr t (64 * l)) 64 = slice v.data 0 64 ∧
         u.bytes (padAddr t (64 * (l + 1024))) 64 = slice v.data 64 64 ∧ sget none (u.tile t).slots (q.w1 30 29) = none ∧
         ∀ a, ¬(padAddr t (64 * l) ≤ a ∧ a < padAddr t (64 * l) + 64) →
           ¬(padAddr t (64 * (l + 1024)) ≤ a ∧ a < padAddr t (64 * (l + 1024)) + 64) → u.byte a = m.byte a)) ∧
   (∀ (s : State) (t : TileIx) (c : XChan) (r : XfeRun), Due (xfeDoneDue t c) t s →
     let m := s.atPhase (xfeDoneDue t c) t 10
     let x := m.tile t
     m.clockOn t = true → x.xfeOver (m.fc t) = [r] → x.xfe.bad = none → x.xfe.halt = false →
     Completes (.xfeComplete t c) s fun u => OnlyTile t m u ∧ (u.tile t).xfe.run = x.xfe.run.erase r ∧
       (u.tile t).fld .XFE_CNT [] F.XFE_CNT_CMD_CNT = (x.fld .XFE_CNT [] F.XFE_CNT_CMD_CNT + 1) % 2 ^ F.XFE_CNT_CMD_CNT.width ∧
       (u.tile t).gpend = x.gpend ++ if r.q.w1 59 59 = 1 then [.add (r.q.w1 58 55) 1 false] else []) ∧
   ∀ (s0 : State) (t : TileIx) (d : Dir) (late : Bool) (h : HopFly),
     let s := if late then s0.holdBack t (dirNo d) else s0
     let m := s.atPhase (hopDue t (dirNo d)) t 2
     Due (hopDue t (dirNo d)) t s → m.clockOn t = true →
     (m.hops.filter fun h => decide (h.tile = t.val) && decide (h.due ≤ m.fc t)) = [h] → h.dir = dirNo d → (m.tile t).hopShut = false →
     (h.unit.dest = t.val → m.skewed h = false → sget none (m.tile t).slots (dirNo d) = none →
       Completes (.hopArrival t d late) s0 fun u => u.hops = m.hops.erase h ∧ sget none (u.tile t).slots (dirNo d) = some h.unit ∧
         SameMem m u ∧ u.regs = m.regs ∧ ∀ k, k ≠ t.val → u.tile k = m.tile k) ∧
     (m.skewed h = true → Completes (.hopArrival t d late) s0 fun u => u.hops = m.hops.erase h ∧ (u.tile t).slots = (m.tile t).slots ∧
       u.fld .REG_CLK [regionOf t] F.REG_CLK_SKEW = 1 ∧ (u.tile t).fld .SEG_FLT [] F.SEG_FLT_COLL = 1 ∧ SameMem m u))

/-- A ready report of a member tile is counted and its offer kept; one that reaches EXPECT announces the fire: the least instant with the
channel's PHASE that is LEAD after now and 128 after the group's latest, with a message for every member tile; one with ERR puts a
collecting channel into ERROR; a stray one sets STRAY and is discarded. -/
def Obligations.ReadyReportsCountAndFire : Prop :=
  ∀ (s : State) (q : ReadyRep), s.domOn (s.chDom q.ch) = true →
    let c := q.ch.val
    let member := bit (s.chMask c) (regionOf q.tile) = true
    let count := s.fld .GUN_STAT [c] F.GUN_STAT_COUNT
    let expect := s.fld .GUN_CHAN [c] F.GUN_CHAN_EXPECT
    let w := s.reg .GUN_VCFG [c]
    let got := (s.chan c).got ++ [(q.tile.val, q.offer)]
    (member → s.chState c = 1 → q.err = false → count + 1 < expect →
      Completes (.readyReport q) s fun u => u.fld .GUN_STAT [c] F.GUN_STAT_COUNT = count + 1 ∧ (u.chan c).got = got ∧
        u.chState c = 1 ∧ u.readies = s.readies.erase q ∧ SameMem s u ∧ u.tiles = s.tiles ∧ RegsBut [Reg.loc .GUN_STAT [c]] s u) ∧
    (∀ v, member → s.chState c = 1 → q.err = false → expect ≤ count + 1 → count + 1 < 2 ^ F.GUN_STAT_COUNT.width →
      verdictOf (F.GUN_VCFG_MODE.get w) (F.GUN_VCFG_LEADT.get w) (BitVec.ofNat 16 (F.GUN_VCFG_VDEF.get w)) got = .ok v →
      Completes (.readyReport q) s fun u => u.chState c = 2 ∧ u.fld .GUN_STAT [c] F.GUN_STAT_COUNT = 0 ∧ (u.chan c).got = [] ∧
        SameMem s u ∧ u.tiles = s.tiles ∧ ∃ n, (u.chan c).ann = some ⟨n, v, false⟩ ∧
          s.chFc c + s.fld .GUN_CHAN [c] F.GUN_CHAN_LEAD ≤ n ∧ (∀ p, s.nPrev (s.chMask c) = some p → p + 128 ≤ n) ∧
          n % 16 = s.fld .GUN_CHAN [c] F.GUN_CHAN_PHASE % 16 ∧
          (∀ k, s.chFc c + s.fld .GUN_CHAN [c] F.GUN_CHAN_LEAD ≤ k → (∀ p, s.nPrev (s.chMask c) = some p → p + 128 ≤ k) →
            k % 16 = s.fld .GUN_CHAN [c] F.GUN_CHAN_PHASE % 16 → n ≤ k) ∧
          u.fires = s.fires ++ (s.chTiles c).map fun t => (t, ⟨q.ch, n, v⟩)) ∧
    (member → s.chState c = 1 → q.err = true →
      Completes (.readyReport q) s fun u => u.chState c = 3 ∧ u.fld .GUN_STAT [c] F.GUN_STAT_ERR = 1 ∧
        u.reports.length = s.reports.length + 1 ∧ SameMem s u) ∧
    (s.chState c = 0 ∨ ¬member → Completes (.readyReport q) s fun u => u.fld .GUN_STAT [c] F.GUN_STAT_STRAY = 1 ∧
      u.readies = s.readies.erase q ∧ u.chans = s.chans ∧ RegsBut [Reg.loc .GUN_STAT [c]] s u ∧ SameMem s u ∧ u.tiles = s.tiles)

/-- The verdict of counted offers by mode: OR, AND, the greatest, the least, the first offer of the lead tile (log 72), or agreement; the
default where no report carries an offer. -/
def Obligations.VerdictsFollowTheirMode : Prop :=
  ∀ (lead : Nat) (vdef : BitVec 16) (l : List (Nat × Option (BitVec 16))),
    let os := (offersOf l).map Prod.snd
    (os = [] → ∀ mode, verdictOf mode lead vdef l = .ok vdef) ∧
    (os ≠ [] →
      (∃ v, verdictOf 1 lead vdef l = .ok v ∧ ∀ i < 16, v.getLsbD i = os.any fun o => o.getLsbD i) ∧
      (∃ v, verdictOf 2 lead vdef l = .ok v ∧ ∀ i < 16, v.getLsbD i = os.all fun o => o.getLsbD i) ∧
      (∃ v, verdictOf 3 lead vdef l = .ok v ∧ v ∈ os ∧ ∀ o ∈ os, o.toNat ≤ v.toNat) ∧
      (∃ v, verdictOf 4 lead vdef l = .ok v ∧ v ∈ os ∧ ∀ o ∈ os, v.toNat ≤ o.toNat) ∧
      (∀ v, ((offersOf l).filter fun e => decide (e.1 = lead)).head? = some (lead, v) → verdictOf 5 lead vdef l = .ok v) ∧
      ((∀ v, (lead, v) ∉ offersOf l) → verdictOf 5 lead vdef l = .ok vdef) ∧
      (∀ v, (∀ o ∈ os, o = v) → verdictOf 6 lead vdef l = .ok v) ∧
      ((∃ o ∈ os, ∃ p ∈ os, o ≠ p) → ∃ t, verdictOf 6 lead vdef l = .error t))

/-- A fire message before N − 1 is recorded untaken, a later one raises GUN_LATE; at the fire instant of a channel without pending commit or
error the announcement is gone, GUN_LAST shows instant and verdict, the group's history gains the segment, every member tile has it
current with a checkpoint in the slot, and the channel collects again. -/
def Obligations.FiresStartSegments : Prop :=
  (∀ (s : State) (t : TileIx) (f : FireMsg), s.clockOn t = true →
    (s.fc t + 1 < f.n → Completes (.fireMessage t f) s fun u =>
      sget none (u.tile t).fires f.ch = some ⟨f.n, f.verdict, false⟩ ∧ u.fires = s.fires.erase (t.val, f) ∧ SameMem s u ∧
      u.regs = s.regs ∧ (∀ k, k ≠ t.val → u.tile k = s.tile k) ∧ (u.tile t).regs = (s.tile t).regs ∧ (u.tile t).thr = (s.tile t).thr) ∧
    (f.n ≤ s.fc t + 1 → Completes (.fireMessage t f) s fun u =>
      (u.tile t).fires = (s.tile t).fires ∧ (u.tile t).fld .SEG_FLT [] F.SEG_FLT_LATE = 1 ∧ SameMem s u)) ∧
  ∀ (s : State) (ch : ChanIx) (a : Announce),
    let c := ch.val
    let m := s.toFc (s.chDom c) a.n
    s.domOn (s.chDom c) = true → (s.chan c).ann = some a → m.domOn (s.chDom c) = true → s.commit = none → m.commit = none →
    (m.chan c).errAt = false → m.fld .GUN_STAT [c] F.GUN_STAT_COUNT < m.fld .GUN_CHAN [c] F.GUN_CHAN_EXPECT →
    m.chDom c = s.chDom c →
    Completes (.fireInstant ch) s fun u => u.chState c = 1 ∧ (u.chan c).ann = none ∧ (u.chan c).fired = some (a.n, a.verdict) ∧
      u.fld .GUN_LAST [c] F.GUN_LAST_N = a.n % 2 ^ 48 ∧ u.fld .GUN_LAST [c] F.GUN_LAST_VERDICT = a.verdict.toNat ∧ SameMem m u ∧
      (u.group (m.chMask c)).segs.head? = some ⟨c, a.n, a.verdict⟩ ∧
      ∀ t ∈ m.chTiles c, (u.tile t).fld .SEG_STAT [] F.SEG_STAT_VALID = 1 ∧ (u.tile t).fld .SEG_STAT [] F.SEG_STAT_CH = c ∧
        ((u.tile t).segment.bind fun g => (sget none (u.tile t).ckpt g.2).map fun k => (k.ch, k.n)) = some (c, a.n)

/-- A channel that has not fired within its bound shows TMO and the lowest tile whose report is missing, and sends one report; an untimed
message sets UNT and, with UTA, acts as an abort request; the first abort request for a segment in the history sets A and tells every
member tile; an abort message marks the held reports of faults at or after R0 secondary; a report that no message has marked 49 fc after
its fault is sent as primary. -/
def Obligations.TimeoutsAndAbortRequestsAreRecorded : Prop :=
  (∀ (s : State) (ch : ChanIx),
    let c := ch.val
    let lim := s.fld .GUN_LIM [c] F.GUN_LIM_LIMIT
    let m := s.toWt ((s.chan c).since + lim * 256000)
    s.domOn (s.chDom c) = true → lim ≠ 0 → s.chState c ≠ 0 → (s.chan c).timed = false → m.domOn (s.chDom c) = true →
    Completes (.gunTimeout ch) s fun u => u.fld .GUN_STAT [c] F.GUN_STAT_TMO = 1 ∧ (u.chan c).timed = true ∧
      u.fld .GUN_STAT [c] F.GUN_STAT_MISS = (m.missing c).getD 0 % 2 ^ F.GUN_STAT_MISS.width ∧
      u.reports.length = m.reports.length + 1 ∧ SameMem m u ∧ u.tiles = m.tiles) ∧
  (∀ (s : State) (q : AbortReq) (k : Ckpt) (seg : Seg),
    let c := q.ch.val
    let g := s.group (s.chMask c)
    let opened := fun (u : State) => (u.group (s.chMask c)).abort = some ⟨s.chFc c + 64, s.chFc c, seg⟩ ∧
      u.abortMsgs = s.abortMsgs ++ (s.chTiles c).map fun t => (t, c)
    s.domOn (s.chDom c) = true →
    (s.fld .GUN_CHAN [c] F.GUN_CHAN_UTA = 0 → Completes (.untimedMessage q) s fun u => u.fld .GUN_STAT [c] F.GUN_STAT_UNT = 1 ∧
      u.untimed = s.untimed.erase q ∧ RegsBut [Reg.loc .GUN_STAT [c]] s u ∧ SameMem s u ∧ u.tiles = s.tiles ∧ u.groups = s.groups) ∧
    (sget none (s.tile q.tile).ckpt q.slot = some k → k.ch = c →
      g.segs.find? (fun x => decide (x.ch = c) && decide (x.n = k.n)) = some seg → g.abort = none →
      (s.fld .GUN_CHAN [c] F.GUN_CHAN_UTA = 1 → Completes (.untimedMessage q) s fun u => u.fld .GUN_STAT [c] F.GUN_STAT_UNT = 1 ∧ opened u) ∧
      Completes (.abortRequest q) s fun u => opened u ∧ u.abortReqs = s.abortReqs.erase q ∧ u.regs = s.regs ∧ SameMem s u)) ∧
  (∀ (s : State) (t : TileIx) (ch : ChanIx) (b : Abort), s.clockOn t = true → (s.group (s.chMask ch)).abort = some b →
    bit (s.chMask ch) (regionOf t) = true →
    Completes (.abortMessage t ch) s fun u => (u.tile t).seenR0 = some b.r0 ∧
      (u.tile t).held = (s.tile t).held.filter (fun h => decide (h.fc < b.r0)) ∧
      u.reports = s.reports ++ (((s.tile t).held.filter fun h => decide (b.r0 ≤ h.fc)).map fun h => { h.rep with sec := true }) ∧
      SameMem s u) ∧
  ∀ (s : State) (t : TileIx) (h : HeldReport) (hs : List HeldReport),
    let m := s.tileToFc t (h.fc + 49)
    s.clockOn t = true → (s.tile t).held = h :: hs → m.clockOn t = true → (m.tile t).held = h :: hs → h.fc + 49 ≤ m.fc t →
    Completes (.reportMarkDeadline t) s fun u => u.reports = m.reports ++ (((m.tile t).held.filter fun h =>
        decide (h.fc + 49 ≤ m.fc t)).map HeldReport.rep) ∧
      (u.tile t).held = (m.tile t).held.filter (fun h => !decide (h.fc + 49 ≤ m.fc t)) ∧ SameMem m u ∧ u.regs = m.regs

/-- At the abort instant the group's channel of the restarted segment is ABORTED with that segment's verdict kept, the abort is over, and in
every member tile the engines are empty and stopped, the hop slots empty and shut, and the restarted segment is current; a halted pace
thread with a checkpoint is restored from it into GUN. -/
def Obligations.AbortsRollSegmentsBack : Prop :=
  (∀ (s : State) (ch : ChanIx) (b : Abort),
    let m := s.toFc (s.chDom ch) b.a
    let mask := s.chMask ch
    s.domOn (s.chDom ch) = true → (s.group mask).abort = some b → (m.group mask).abort = some b → m.domOn (s.chDom ch) = true →
    b.seg.ch < 64 →
    Completes (.abortInstant ch) s fun u => u.chState b.seg.ch = 4 ∧ (u.chan b.seg.ch).rv = b.seg.verdict ∧
      (u.group mask).abort = none ∧ SameMem m u ∧
      ∀ t ∈ tilesOfMask mask, (u.tile t).mxq = [] ∧ (u.tile t).vxq = [] ∧ (u.tile t).xfq = [] ∧ (u.tile t).late = [] ∧
        (u.tile t).slots = [] ∧ (u.tile t).hopShut = true ∧ (u.tile t).vxe.run = [] ∧ (u.tile t).xfe.run = [] ∧
        (u.tile t).mxe.stopped = true ∧ (u.tile t).vxe.stopped = true ∧ (u.tile t).xfe.stopped = true ∧
        (u.tile t).segment = some (b.seg.ch, ((m.tile t).slotOf b.seg.ch b.seg.n).getD 0)) ∧
  ∀ (s0 : State) (src : Writer) (t : TileIx), Reaches src t s0 →
    let s := s0.carried src t
    let y := s.tile t
    let slot := y.fld .SEG_STAT [] F.SEG_STAT_SLOT
    let ok := (y.th 0).st = .halted ∧ y.fld .SEG_STAT [] F.SEG_STAT_CKV = 1
    (∀ k, sget none y.ckpt slot = some k → ok → Completes (.restore src t) s0 fun u => OnlyTile t s u ∧
      u.thr t 0 = { k.pace with st := .gun (y.fld .SEG_STAT [] F.SEG_STAT_CH) 0 (s.fc t) true } ∧
      ∀ n, n ≠ 0 → u.thr t n = s.thr t n) ∧
    (sget none y.ckpt slot = none ∨ ¬ok → Completes (.restore src t) s0 fun u => OnlyTile t s u ∧ (u.tile t).thr = y.thr ∧
      (u.tile t).fld .PAD_ERR [] F.PAD_ERR_CFG_REJ = 1)

/-- GUN_CHAN with EN 0 takes a configuration and, where it may be enabled, collects; EN 1 takes only a write that clears EN outside ANNOUNCED;
anything else sets CFG_REJ. RECOUNT acts in ERROR, GO in ABORTED, ABORT on the latest segment; verdict settings change only while the
channel is disabled. -/
def Obligations.GunChannelsAreControlled : Prop :=
  ∀ (s : State) (ch : ChanIx),
    let c := ch.val
    let rej := fun (u : State) => OnlyRegs s u ∧ u.fld .GUN_STAT [c] F.GUN_STAT_CFG_REJ = 1 ∧ RegsBut [Reg.loc .GUN_STAT [c]] s u
    let old := s.reg .GUN_CHAN [c]
    let on := F.GUN_CHAN_EN.get old = 1
    (∀ v, let w := writeFields Reg.GUN_CHAN.info.flds old v
      let en := F.GUN_CHAN_EN.get v = 1
      (¬on → en → s.chanOk c w = true → Completes (.gunChanWrite .mgmt ch v) s fun u => u.reg .GUN_CHAN [c] = w ∧ u.chState c = 1 ∧
        u.fld .GUN_STAT [c] F.GUN_STAT_COUNT = 0 ∧ u.chan c = { Chan.init with since := s.wt } ∧ SameMem s u ∧ u.tiles = s.tiles) ∧
      (¬on → en → s.chanOk c w = false → Completes (.gunChanWrite .mgmt ch v) s fun u => OnlyRegs s u ∧
        u.fld .GUN_CHAN [c] F.GUN_CHAN_EN = 0 ∧ u.fld .GUN_STAT [c] F.GUN_STAT_CFG_REJ = 1) ∧
      (¬on → ¬en → Completes (.gunChanWrite .mgmt ch v) s fun u => OnlyRegs s u ∧ u.reg .GUN_CHAN [c] = w) ∧
      (on → ¬en → s.chState c ≠ 2 → Completes (.gunChanWrite .mgmt ch v) s fun u => u.chState c = 0 ∧ u.chan c = Chan.init ∧
        u.fld .GUN_CHAN [c] F.GUN_CHAN_EN = 0 ∧ SameMem s u) ∧
      (on → (en ∨ s.chState c = 2) → Completes (.gunChanWrite .mgmt ch v) s rej)) ∧
    (s.chState c = 3 → Completes (.gunRecount ch) s fun u => u.chState c = 1 ∧ u.fld .GUN_STAT [c] F.GUN_STAT_COUNT = 0 ∧
      (u.chan c).got = [] ∧ SameMem s u ∧ ∀ t ∈ s.chTiles c, ∀ a, sget none (s.tile t).arms c = some a →
        ∃ b, sget none (u.tile t).arms c = some b ∧ b.spent = false ∧ b.gauge = a.gauge ∧ b.thr = a.thr ∧ b.offer = a.offer) ∧
    (s.chState c ≠ 3 → Completes (.gunRecount ch) s rej) ∧
    (s.chState c = 4 → s.fld .GUN_CHAN [c] F.GUN_CHAN_RERUN = 1 → s.fld .GUN_STAT [c] F.GUN_STAT_RETRY < 2 →
      Completes (.gunGo ch) s fun u => u.chState c = 2 ∧ SameMem s u ∧
        u.fld .GUN_STAT [c] F.GUN_STAT_RETRY = s.fld .GUN_STAT [c] F.GUN_STAT_RETRY + 1 ∧
        ∃ n, (u.chan c).ann = some ⟨n, (s.chan c).rv, true⟩) ∧
    (s.chState c = 4 → (s.fld .GUN_CHAN [c] F.GUN_CHAN_RERUN = 0 ∨ 2 ≤ s.fld .GUN_STAT [c] F.GUN_STAT_RETRY) →
      Completes (.gunGo ch) s fun u => u.chState c = 5) ∧
    (s.chState c ≠ 4 → Completes (.gunGo ch) s rej) ∧
    (∀ f seg, (s.chan c).fired = some f → (s.group (s.chMask c)).segs.find? (fun x => decide (x.ch = c) && decide (x.n = f.1)) = some seg →
      (s.group (s.chMask c)).abort = none → s.chState c ∈ [1, 2, 3] →
      Completes (.gunAbort ch) s fun u => (u.group (s.chMask c)).abort = some ⟨s.chFc c + 64, s.chFc c, seg⟩ ∧ u.regs = s.regs ∧ SameMem s u) ∧
    ((s.chan c).fired = none → Completes (.gunAbort ch) s rej) ∧
    (∀ v, ¬on → F.GUN_VCFG_MODE.get v ≠ 7 → Completes (.gunVcfgWrite .mgmt ch v) s fun u => OnlyRegs s u ∧
      u.fld .GUN_VCFG [c] F.GUN_VCFG_MODE = F.GUN_VCFG_MODE.get v ∧ u.fld .GUN_VCFG [c] F.GUN_VCFG_VDEF = F.GUN_VCFG_VDEF.get v ∧
      u.fld .GUN_VCFG [c] F.GUN_VCFG_LEADT = F.GUN_VCFG_LEADT.get v ∧ RegsBut [Reg.loc .GUN_VCFG [c]] s u) ∧
    ∀ v, (on ∨ F.GUN_VCFG_MODE.get v = 7) → Completes (.gunVcfgWrite .mgmt ch v) s fun u => OnlyRegs s u ∧
      u.fld .GUN_STAT [c] F.GUN_STAT_CFG_REJ = 1 ∧ u.fld .GUN_VCFG [c] F.GUN_VCFG_MODE = s.fld .GUN_VCFG [c] F.GUN_VCFG_MODE ∧
      u.fld .GUN_VCFG [c] F.GUN_VCFG_VDEF = s.fld .GUN_VCFG [c] F.GUN_VCFG_VDEF ∧
      u.fld .GUN_VCFG [c] F.GUN_VCFG_LEADT = s.fld .GUN_VCFG [c] F.GUN_VCFG_LEADT

/-- A droop stretches the region's next fc, is counted by its factor, lengthens the domain by one or by half a period once, and starts a wave
to every other region of the domain; a wave that arrives stretches the fc at its distance, of two on one fc the higher origin waits with
DEFER. -/
def Obligations.StretchWavesSpread : Prop :=
  (∀ (s : State) (r : RegionIx) (two : Bool) (d : Nat), s.polderOf r = some d →
    let x := s.dom d
    let f := if two then F.REG_CLK_ORIG20 else F.REG_CLK_ORIG15
    Completes (.droopStretch r two) s fun u => SameMem s u ∧ u.tiles = s.tiles ∧
      u.fld .REG_CLK [r] f = min (s.fld .REG_CLK [r] f + 1) (2 ^ f.width - 1) ∧
      u.dom d = { x with debt := x.debt + if two then 64 else 32 } ∧ (∀ k, k ≠ d → u.dom k = s.dom k) ∧
      u.fld .DOM_STAT [d] F.DOM_STAT_WAVE_CNT = (s.fld .DOM_STAT [d] F.DOM_STAT_WAVE_CNT + 1) % 2 ^ F.DOM_STAT_WAVE_CNT.width ∧
      (∀ k, k < 24 → k ≠ r.val → s.polderOf k = some d → (k, (⟨r, x.fc + 1, two⟩ : Wave)) ∈ u.waves) ∧
      ∃ e ∈ u.stretch, e.region = r.val ∧ e.origin = r.val ∧ e.two = two ∧ x.fc + 1 ≤ e.fc) ∧
  ∀ (s : State) (r : RegionIx) (w : Wave), (r.val, w) ∈ s.waves →
    let fc := w.fc + regionDist w.origin r
    (s.stretch.find? (fun y => decide (y.region = r.val) && decide (y.fc = fc)) = none →
      Completes (.stretchWave r w) s fun u => u.stretch = ⟨r, fc, w.origin, w.fc, w.two⟩ :: s.stretch ∧ u.waves = s.waves.erase (r.val, w) ∧
        u.regs = s.regs ∧ SameMem s u ∧ u.tiles = s.tiles ∧ u.doms = s.doms) ∧
    ∀ y, s.stretch.find? (fun y => decide (y.region = r.val) && decide (y.fc = fc)) = some y →
      Completes (.stretchWave r w) s fun u => u.fld .REG_CLK [r] F.REG_CLK_DEFER = 1 ∧
        u.waves = s.waves.erase (r.val, w) ∧ SameMem s u ∧ u.tiles = s.tiles

/-- A monitor's lower request sets FMON; its withdrawal raises it no sooner than 1 ms after the request; a region outside any polder changes
no other register; a domain at its switch fc runs at the new frequency; a read-back shows voltage, current and its error count; a set-
point in the rail's range is taken from the management core, one outside it sets CFG_REJ. The pace pulse stands at the next whole
microsecond and gives every region's timekeeper the rate that removes its difference; a PPS edge is timestamped and, where the source
allows it, steers by its offset within SLEWMAX (the millisecond that it takes: log 28); a step moves wall time only forward and with no
polder RUNNING; holdover runs unsteered; an exchange sends a request on the uplink path, and a request is answered with its first stamp
and the time of its arrival. -/
def Obligations.FrequencyVoltageAndTimeFollowTheirInputs : Prop :=
  ((∀ (s : State) (r : RegionIx) (m : Nat), 19 ≤ m → m ≤ 64 →
     let fmon := s.fld .REG_CLK [r] F.REG_CLK_FMON
     let n := s.toWt (sget 0 s.monAt r + 256000000)
     let shows := fun (s u : State) => u.fld .REG_CLK [r] F.REG_CLK_FMON = m ∧ SameMem s u ∧ u.tiles = s.tiles ∧
       (s.polderOf r = none → RegsBut [Reg.loc .REG_CLK [r]] s u)
     (m < fmon → Completes (.monitorRequest r m) s fun u => shows s u ∧ sget 0 u.monAt r = s.wt) ∧
     (fmon < m → Completes (.monitorWithdraw r m) s (shows n))) ∧
   (∀ (s : State) (d : PolderIx) (f n : Nat) (rest : List (Nat × Nat)), (s.dom d).switch = (f, n) :: rest →
     Completes (.freqSwitch d) s (fun u => u = s.toFc d f) ∧
     (f ≤ (s.dom d).fc → n ≤ 64 → (s.switchDue d).fapp d = n ∧ (s.switchDue d).dom d = { s.dom d with switch := rest } ∧
       OnlyRegs { s with doms := (s.switchDue d).doms } (s.switchDue d) ∧ RegsBut [Reg.loc .DOM_STAT [d]] s (s.switchDue d))) ∧
   (∀ (s : State) (mv amps ceil : Nat) (e : Bool), mv < 2 ^ 16 → amps < 2 ^ 16 →
     Completes (.avsReadback 0 mv amps ceil e) s fun u => OnlyRegs s u ∧ RegsBut [Reg.loc .AVS_STAT [0]] s u ∧
       u.fld .AVS_STAT [0] F.AVS_STAT_MEAS_MV = mv ∧ u.fld .AVS_STAT [0] F.AVS_STAT_AMPS = amps ∧
       (e = true → u.fld .AVS_STAT [0] F.AVS_STAT_ERR = 1)) ∧
   (∀ (s : State) (a : AvsIx) (mv amps ceil : Nat) (e : Bool), a.val ≠ 0 → 19 ≤ ceil → ceil ≤ 64 → mv < 2 ^ 16 → amps < 2 ^ 16 →
     Completes (.avsReadback a mv amps ceil e) s fun u => u.fld .AVS_STAT [a] F.AVS_STAT_MEAS_MV = mv ∧
       u.fld .HALF_STAT [a.val - 1] F.HALF_STAT_MV = mv ∧ u.fld .HALF_STAT [a.val - 1] F.HALF_STAT_FCEIL = ceil ∧ SameMem s u ∧
       u.tiles = s.tiles) ∧
   ∀ (s : State) (a : AvsIx) (v : W64),
     let mv := v.toNat % 2 ^ F.AVS_SET_MV.width
     let ok := if a.val = 0 then 780 ≤ mv ∧ mv ≤ 820 else 600 ≤ mv ∧ mv ≤ 850
     (ok → Completes (.avsSet .mgmt a v) s fun u => OnlyRegs s u ∧ u.fld .AVS_SET [a] F.AVS_SET_MV = mv ∧
       RegsBut [Reg.loc .AVS_SET [a]] s u) ∧
     (¬ok → Completes (.avsSet .mgmt a v) s fun u => OnlyRegs s u ∧ u.fld .PWR_STAT [] F.PWR_STAT_CFG_REJ = 1 ∧
       RegsBut [Reg.loc .PWR_STAT []] s u)) ∧
  ((∀ s : State, let m := s.toNs ((s.ns / 1000 + 1) * 1000)
     Completes .pacePulse s fun u => u = { m with timekeepers := u.timekeepers } ∧ ∀ r < 24, sget none u.timekeepers r =
       some ⟨m.ref, m.regWt r, max (-rateOne) (((m.wt : Int) - m.regWt r) * 1000000)⟩) ∧
   (∀ s : State, s.rateAdj = 0 → s.tiles = [] → s.towers = [] → Completes .pacePulse s fun u => (s.ns / 1000 + 1) * 256000 ≤ u.wt) ∧
   (∀ s : State, let sec := 256000000000
     let slew : Int := s.fld .TB_CTL [] F.TB_CTL_SLEWMAX * 256000
     Completes .ppsIn s fun u => u.reg .TB_PPS [] = BitVec.ofNat 64 s.ns ∧ SameMem s u ∧ u.tiles = s.tiles ∧ u.wt = s.wt ∧
     (s.fld .TB_CTL [] F.TB_CTL_SRC ≤ 1 → u.tbSrc = 1 ∧ u.rateAdj = max (-slew) (min slew (((s.wt + sec / 2) / sec * sec : Nat) - (s.wt : Int))) ∧
       (s.fld .TB_STAT [] F.TB_STAT_SRCA ≠ 0 → u.fld .TB_STAT [] F.TB_STAT_SRCA = 1)) ∧
     (1 < s.fld .TB_CTL [] F.TB_CTL_SRC → OnlyRegs s u ∧ RegsBut [Reg.loc .TB_PPS []] s u)) ∧
   (∀ (s : State) (src : Writer), ReachesChip src s →
     let ns := (s.reg .TB_SET []).toNat
     let ok := (∀ d < 8, s.polderState d ≠ 2) ∧ s.wt < ns * 256
     (ok → Completes (.tbStep src) s fun u => u.wt = ns * 256 ∧ u.fld .TB_STAT [] F.TB_STAT_STEPPED = 1 ∧ SameMem s u ∧
       u.tiles = s.tiles ∧ RegsBut [Reg.loc .TB_STAT []] s u) ∧
     (¬ok → Completes (.tbStep src) s fun u => OnlyRegs s u ∧ u.fld .TB_STAT [] F.TB_STAT_STEPREJ = 1 ∧ RegsBut [Reg.loc .TB_STAT []] s u)) ∧
   (∀ s : State, (s.fld .TB_CTL [] F.TB_CTL_SRC = 0 ∨ s.fld .TB_CTL [] F.TB_CTL_SRC = 3) →
     Completes .timebaseHoldover s fun u => u.rateAdj = 0 ∧ u.tbSrc = 3 ∧ SameMem s u ∧ u.wt = s.wt ∧
       u.fld .TB_STAT [] F.TB_STAT_SRCA = (if s.fld .TB_STAT [] F.TB_STAT_SRCA = 0 then 0 else 3) ∧
       RegsBut [Reg.loc .TB_STAT []] s u) ∧
   (∀ (s : State) (p : Nat), (s.usable (s.fld .TB_CTL [] F.TB_CTL_UPATH))[1 % (s.usable (s.fld .TB_CTL [] F.TB_CTL_UPATH)).length]? = some p →
     Completes .timebaseExchange s fun u => u.timeReq = some (s.timeNo % 2 ^ 32, p, 0) ∧ u.timeNo = s.timeNo % 2 ^ 32 + 1 ∧
       u.regs = s.regs ∧ SameMem s u ∧ ∃ m, sget [] (u.lport p).own 1 = sget [] (s.lport p).own 1 ++ [m] ∧
         leNat (m.data.take 4) = s.timeNo % 2 ^ 32 ∧ byteAt m.data 31 = 1) ∧
   ∀ (s : State) (p : PortIx) (rx : Nat) (m : RxMsg) (ms : List RxMsg), sget [] (s.lport p).rx 1 = m :: ms → m.w0.toNat / 2 ^ 60 = 7 →
     m.eom = true → leNat (slice m.buf 4 9) ≠ 0 → byteAt m.buf 31 = 1 → rx < 2 ^ 72 →
     Completes (.timeMessage p rx) s fun u => u.regs = s.regs ∧ SameMem s u ∧ sget [] (u.lport p).rx 1 = ms ∧
       ∃ r, sget [] (u.lport p).own 1 = sget [] (s.lport p).own 1 ++ [r] ∧ leNat (slice r.data 4 9) = leNat (slice m.buf 4 9) ∧
         leNat (slice r.data 13 9) = rx ∧ byteAt r.data 31 = 2)

/-- A flit slot of a port that is UP sends what is due first: a CTRL flit, then flits to be resent, then a data flit, then IDLE. A good DATA
flit with the expected SEQ is accepted, a duplicate counted, one that fails its check discarded. A CTRL flit returns credits up to what a
pool advertises and marks what is to be resent; the timers of R246 to R248 do the same at their bounds. -/
def Obligations.FlitsAreSentAcceptedAndResent : Prop :=
  ∀ (s : State) (p : PortIx),
    let x := s.lport p
    (s.portState p = 2 → (x.ctrl = true ∨ x.cmd.isSome = true ∨ x.rplDue ≠ []) →
      Completes (.flitSlot p) s fun u => u.out = s.out ++ [.flit p (x.ctrlBytes (x.cmd.getD (0, 0)).1 (x.cmd.getD (0, 0)).2)] ∧
        (u.lport p).ctrl = false ∧ (u.lport p).cmd = none ∧ (u.lport p).rplDue = [] ∧ u.regs = s.regs ∧ SameMem s u) ∧
    (∀ f, s.portState p = 2 → x.ctrl = false → x.cmd = none → x.rplDue = [] → (sget [] x.buf 0).length < 1024 →
      sget 0 x.togo 2 = 0 → sget 0 x.togo 1 = 0 → sget 0 x.togo 0 ≠ 0 → x.rpl < 8192 →
      (sget [] x.buf 0)[(sget [] x.buf 0).length - sget 0 x.togo 0]? = some f →
      Completes (.flitSlot p) s fun u => u.out = s.out ++ [.flit p (stamped s.wt true f).bytes] ∧
        sget 0 (u.lport p).togo 0 = sget 0 x.togo 0 - 1 ∧ (u.lport p).rpl = x.rpl + 1 ∧
        u.fld .PORT_CNT [p] F.PORT_CNT_RPL_TOT = (s.fld .PORT_CNT [p] F.PORT_CNT_RPL_TOT + 1) % 2 ^ 32 ∧ SameMem s u) ∧
    (s.portState p = 2 → x.ctrl = false → x.cmd = none → x.rplDue = [] → (sget [] x.buf 0).length < 1024 →
      (∀ k < 3, sget 0 x.togo k = 0) → (∀ c < 7, s.sendData p c = none) →
      Completes (.flitSlot p) s fun u => u = { s with out := s.out ++ [.flit p (flitBytes (3 * 2 ^ 92) [])] }) ∧
    (∀ raw, s.carries p = true → s.portState p ≠ 5 → flitGood raw 1 = true →
      let h := leNat (slice raw 0 12)
      let sp := spaceOf (bits h 91 89)
      let e := sget 0 x.exp sp
      let d := (bits h 88 77 + 4096 - e) % 4096
      (d = 0 → Completes (.dataFlit p raw false) s fun u => sget 0 (u.lport p).exp sp = (e + 1) % 4096 ∧ SameMem s u ∧
        ((bits h 91 89 = 0 ∨ s.peerMm p = false) → bit h 76 = true → ∃ m, sget [] (u.lport p).rx (bits h 91 89) = sget [] x.rx (bits h 91 89) ++ [m] ∧
          m.w0 = BitVec.ofNat 64 (leNat (slice (slice raw 12 (bits h 72 65 + 1)) 0 8)) ∧ m.tenant = bits h 64 49 ∧
          m.msgid = bits h 48 37 ∧ m.eom = bit h 75 ∧ m.begun = false ∧ m.mixed = false)) ∧
      (2048 ≤ d → Completes (.dataFlit p raw false) s fun u => sget 0 (u.lport p).exp sp = e ∧ (u.lport p).ctrl = true ∧
        (u.lport p).rx = x.rx ∧ u.fld .PORT_CNT [p] F.PORT_CNT_DUP_CNT = min (s.fld .PORT_CNT [p] F.PORT_CNT_DUP_CNT + 1) 65535 ∧
        SameMem s u)) ∧
    (∀ raw fec, s.carries p = true → flitGood raw 1 = false → Completes (.dataFlit p raw fec) s fun u =>
      u.fld .PORT_ERR [p] F.PORT_ERR_CRC = 1 ∧ (u.lport p).rx = x.rx ∧ (u.lport p).exp = x.exp ∧ SameMem s u) ∧
    (∀ raw, s.carries p = true → flitGood raw 2 = true → leNat (slice raw 19 1) = 0 → Completes (.ctrlFlit p raw) s fun u =>
      (∀ k < 9, sget 0 (u.lport p).cred k = min (sget 0 x.cred k + leNat (slice raw (22 + 2 * k) 2)) (advOf k)) ∧
      (∀ k < 3, bit (leNat (slice raw 18 1)) k = true → sget 0 (u.lport p).togo k = (sget [] (u.lport p).buf k).length) ∧
      u.regs = s.regs ∧ SameMem s u) ∧
    (∀ t, x.ackAt = some t → s.portRuns p = true → let m := s.toWt (t + 200 * 256)
      Completes (.ackTimer p) s fun u => u.lport p = { m.lport p with ctrl := true } ∧ u.regs = m.regs ∧ SameMem m u) ∧
    (∀ sp t, sget none x.timer (spaceNo sp) = some t → s.portRuns p = true → let m := s.toWt (t + 4000 * 256)
      Completes (.replayTimeout p sp) s fun u => u.regs = m.regs ∧ SameMem m u ∧
        sget 0 (u.lport p).togo (spaceNo sp) = (sget [] (m.lport p).buf (spaceNo sp)).length ∧
        sget none (u.lport p).timer (spaceNo sp) = some m.wt) ∧
    (∀ t, x.arqAt = some t → s.portRuns p = true → 1024 ≤ (sget [] x.buf 0).length → let m := s.toWt (t + 1000 * 256)
      Completes (.arqRepeat p) s fun u => u.lport p = { m.lport p with arqAt := none } ∧ u.regs = m.regs ∧ SameMem m u) ∧
    (s.portRuns p = true → let m := s.toWt (x.winAt + 1000000 * 256)
      let y := m.lport p
      Completes (.windowEnd p) s fun u => u.fld .PORT_WIN [p] F.PORT_WIN_RPL = min y.rpl 0xFFFF ∧
        u.fld .PORT_WIN [p] F.PORT_WIN_CRCE = min y.crce 0xFFFF ∧ u.fld .PORT_WIN [p] F.PORT_WIN_FECU = min y.fecu 0xFFFF ∧
        u.fld .PORT_STAT [p] F.PORT_STAT_DEG = (if 1024 < y.rpl then 1 else 0) ∧ (u.lport p).rpl = 0 ∧ SameMem m u)

/-- A port goes DOWN by CMD 1 or by PORT_CTL with its buffers dropped and its waiting messages counted, RETIRED with the fourth DOWN event of
a day; planned retrains drain it first; training brings it UP with fresh credits; a third failed attempt in a row retires it; HOLD flits
hold it and IDLE flits release it; a path without usable port fails at the end of its grace. -/
def Obligations.PortsAndPathsChangeState : Prop :=
  ∀ (s : State) (p : PortIx),
    let x := s.lport p
    let downs := (x.downs.filter fun t => decide (s.wt < t + dayWt)).length + 1
    let down := fun (cause : Nat) (u : State) => u.portState p = (if 4 ≤ downs then 6 else 4) ∧ (u.lport p).buf = [] ∧
      (u.lport p).wait = [] ∧ (u.lport p).stage = [] ∧ u.fld .PORT_ERR [p] F.PORT_ERR_CAUSE = cause ∧
      u.fld .PORT_ERR [p] F.PORT_ERR_DOWN = 1 ∧ SameMem s u ∧
      u.fld .PORT_STAT [p] F.PORT_STAT_PDN_CNT = min (s.fld .PORT_STAT [p] F.PORT_STAT_PDN_CNT + x.wait.length) 65535
    (s.carries p = true → Completes (.ctrlDown p) s (down 3)) ∧
    ((s.carries p = true ∨ s.portState p = 1) → Completes (.portCtlDown .mgmt p) s (down 5)) ∧
    (s.portState p = 2 → Completes (.ctrlRetrain p) s (fun u => u.portState p = 3 ∧ SameMem s u ∧ u.tiles = s.tiles) ∧
      Completes (.portCtlRetrain .mgmt p) s (fun u => u.portState p = 3 ∧ (u.lport p).cmd = some (2, 0) ∧ SameMem s u ∧ u.tiles = s.tiles) ∧
      ∀ l, Completes (.ctrlWidth p l) s fun u => u.portState p = 3 ∧ (u.lport p).wantLanes = some l ∧ SameMem s u ∧ u.tiles = s.tiles) ∧
    (s.portState p = 3 → x.drained = true → Completes (.drainComplete p) s fun u => u.portState p = 1 ∧
      u.fld .PORT_CNT [p] F.PORT_CNT_RETRAINS = min (s.fld .PORT_CNT [p] F.PORT_CNT_RETRAINS + 1) 65535 ∧ SameMem s u) ∧
    (∀ both, s.portState p = 4 → let m := s.toWt x.cmdTill
      Completes (.retrainAttempt p both) s fun u => u.portState p = 1 ∧ (u.lport p).attempt = some m.wt ∧ (u.lport p).full = false ∧
        SameMem m u) ∧
    (s.portState p = 1 → Completes (.fastRetrainFail p) s fun u => (u.lport p).full = true ∧ u.regs = s.regs ∧ SameMem s u) ∧
    (∀ (i : TrainInfo) (l g : Nat), s.portState p = 1 → x.rx = [] →
      x.pick i (min (min (lanesOf (s.app .PORT_CFG [p] F.PORT_CFG_WIDTH)) i.peerLanes) (x.wantLanes.getD 8)) = some (l, g) →
      Completes (.trainingComplete p i) s fun u => u.portState p = (if s.isFrozen then 5 else 2) ∧ (u.lport p).lane = g ∧
      u.fld .PORT_STAT [p] F.PORT_STAT_WIDTHA = widthOf l ∧
      u.fld .PORT_STAT [p] F.PORT_STAT_PEERID = i.peer.toNat ∧ u.reg .PORT_PEER [p] = i.dev ∧
      u.fld .PORT_STAT [p] F.PORT_STAT_FAILS = 0 ∧ SameMem s u ∧ u.tiles = s.tiles ∧
      ∀ k < 9, sget 0 (u.lport p).cred k = advOf k ∧ sget 0 (u.lport p).seq k = 0 ∧ sget 0 (u.lport p).exp k = 0) ∧
    (∀ t, x.attempt = some t → s.portState p = 1 → let m := s.toWt (t + 600000000 * 256)
      let f := min 3 (m.fld .PORT_STAT [p] F.PORT_STAT_FAILS + 1)
      Completes (.attemptTimeout p) s fun u => u.fld .PORT_STAT [p] F.PORT_STAT_FAILS = f ∧ (u.portState p = 4 ∨ u.portState p = 6) ∧
        (f = 3 → u.portState p = 6) ∧ (u.lport p).attempt = none ∧ SameMem m u) ∧
    (∀ (no : BitVec 32) (fo : Bool), s.portRuns p = true → Completes (.holdFlit p no fo) s fun u => u.portState p = 5 ∧
      (u.lport p).held = some (s.portState p, s.wt) ∧ SameMem s u ∧ u.tiles = s.tiles) ∧
    (∀ st t, s.portState p = 5 → s.isFrozen = false → x.held = some (st, t) → st < 8 → Completes (.idleFlit p) s fun u =>
      u.portState p = st ∧ (u.lport p).held = none ∧ SameMem s u ∧ u.tiles = s.tiles) ∧
    ∀ (n : PathIx) (t : Nat), (s.lpath n).since = some t → let m := s.toWt (t + (s.lpath n).left)
      Completes (.graceExpiry n) s fun u => u.fld .PATH_STAT [n] F.PATH_STAT_STATE = 3 ∧ (u.lpath n).q = [] ∧ SameMem m u ∧
        u.fld .PATH_STAT [n] F.PATH_STAT_GEXP_CNT = min (m.fld .PATH_STAT [n] F.PATH_STAT_GEXP_CNT + 1) 65535 ∧
        u.fld .PATH_STAT [n] F.PATH_STAT_FLUSH_CNT =
          min (m.fld .PATH_STAT [n] F.PATH_STAT_FLUSH_CNT + ((m.lpath n).q.flatMap fun e => e.2).length) 65535

/-- A hub takes the request at the front of its queue: one that fails a check of R262 completes with BADREQ and sends nothing; SRING, SSLUICE,
SSLOT and BOPEN read their lines in free slots and queue one message on their path; RGADD and GRANT queue one without data; SRING_SEND
spends credit; BDATA and BCLOSE act on their send context; TSET and TCLR change one entry. A line whose bank is free is read in the same
fc. -/
def Obligations.HubRequestsAreCheckedAndSent : Prop :=
  (∀ (s : State) (t l unit : Nat), SlotFree s t l → s.lineOk t l = true → ∃ m, SlotsOnly s m ∧
    s.freeLoad t (64 * l) 64 unit 1 = .ok (s.bytes (padAddr t (64 * l)) 64) m) ∧
  (∀ (s0 : State) (h : HubIx) (q : HubReq) (qs : List HubReq),
    let s := s0.modHub h fun x => { x with reqs := qs }
    let t := attached h q.atile
    let refused := fun (m u : State) => (u.hub h).reqs = (m.hub h).reqs ∧ u.paths = m.paths ∧ (u.hub h).ent = (m.hub h).ent ∧
      (u.hub h).send = (m.hub h).send ∧ SameMem m u ∧
      u.fld .HUB_CNT [h] F.HUB_CNT_BADREQ_CNT = min (m.fld .HUB_CNT [h] F.HUB_CNT_BADREQ_CNT + 1) 65535
    let sent := fun (op : Nat) (cr : Bool) (data : Bytes) (m u : State) => (u.hub h).reqs = (m.hub h).reqs ∧ SameMem m u ∧ u.tiles = m.tiles ∧
      ∃ g, sget [] (u.lpath q.path).q q.cls = sget [] (m.lpath q.path).q q.cls ++ [g] ∧ g.cls = q.cls ∧ g.data = data ∧ g.credit = cr ∧
        g.tile = q.tile ∧ g.tenant = q.tenant ∧ bits g.w0.toNat 63 60 = op ∧ bits g.w0.toNat 59 54 = q.entry
    let open' := fun m : State => m.fld .PATH_STAT [q.path] F.PATH_STAT_STATE ≠ 3
    let reads := fun (n : Nat) (b : Bytes) (m : State) => s.freeLoad t (64 * q.sline) (64 * n) 6 n = .ok b m
    s0.isFrozen = false → h.val < 16 → (s0.hub h).reqs = q :: qs →
    (s0.reqOk h q = false → (q.hop = 1 → Completes (.sring h) s0 (refused s)) ∧ (q.hop = 2 → Completes (.ssluice h) s0 (refused s)) ∧
      (q.hop = 3 → Completes (.sslot h) s0 (refused s)) ∧ (q.hop = 4 → Completes (.rgaddRequest h) s0 (refused s)) ∧
      (q.hop = 5 → Completes (.grantRequest h) s0 (refused s)) ∧ (q.hop = 6 → Completes (.tset h) s0 (refused s)) ∧
      (q.hop = 7 → Completes (.tclr h) s0 (refused s)) ∧ (q.hop = 8 → Completes (.bopen h) s0 (refused s)) ∧
      (q.hop = 9 → Completes (.bdataRequest h) s0 (refused s)) ∧ (q.hop = 10 → Completes (.bclose h) s0 (refused s))) ∧
    (s0.reqOk h q = true →
      (∀ b m, reads (q.cnt + 1) b m → open' m →
        ((m.txDecl q.path q.cls).en = false → (q.hop = 1 → Completes (.sring h) s0 (sent 1 true b m)) ∧
          (q.hop = 2 → Completes (.ssluice h) s0 (sent 2 false b m))) ∧
        (q.hop = 3 → Completes (.sslot h) s0 (sent 3 false b m))) ∧
      (open' s → q.hop = 4 → Completes (.rgaddRequest h) s0 (sent 4 false [] s)) ∧
      (∀ x, open' s → q.hop = 5 → s.entry h 0 q.entry = some x → some x.polder = q.polder → x.gout + q.cnt + 1 < 2 ^ 24 →
        Completes (.grantRequest h) s0 fun u => sent 5 false [] s u ∧
          u.entry h 0 q.entry = some { x with gout := x.gout + q.cnt + 1 }) ∧
      (∀ k b m, reads 8 b m → open' m → q.hop = 8 → q.cls = 2 → s.sendCtx h q.rank = none →
        hdrF b 6 2 = m.tenant (q.polder.getD 8) → m.boundKey (q.polder.getD 8) (hdrF b 6 2) (hdrF b 8 4) = some k →
        Completes (.bopen h) s0 fun u => sent 8 false b m u ∧
          u.sendCtx h q.rank = some ⟨b, k, sget [] m.keys k, q.tile, q.path, q.entry, 0, [], q.polder⟩) ∧
      (∀ c b m, reads (q.cnt + 1) b m → open' m → q.hop = 9 → q.cls = 2 → s.sendCtx h q.rank = some c → c.path = q.path → c.entry = q.entry →
        let r := c.encrypt (chunks 64 (q.cnt + 2) b) []
        Completes (.bdataRequest h) s0 fun u => sent 9 false r.2 m u ∧ u.sendCtx h q.rank = some r.1) ∧
      (∀ c, open' s → q.hop = 10 → q.cls = 2 → s.sendCtx h q.rank = some c → c.slot < 256 → c.path = q.path → c.entry = q.entry →
        (bit q.aux 0 = true → Completes (.bclose h) s0 fun u => sent 11 false [] s u ∧ u.sendCtx h q.rank = none) ∧
        (bit q.aux 0 = false → c.sent = hdrLen c.hdr → Completes (.bclose h) s0 fun u => u.sendCtx h q.rank = none ∧
          sent 10 false (gcmTag c.key (chunkIv c.hdr ((c.sent - 1) / 4096)) (slice c.hdr 0 384) c.ct) s u)) ∧
      (∀ b m, q.hop = 6 → s.recordGet t q.sline = .ok b m →
        let v := leNat b
        let k := q.aux % 4
        let d := q.polder.getD 8
        (m.entry h k q.entry = none → (k = 3 → (m.hub h).recvEntries < 16) → m.recordOk h k d v = true →
          Completes (.tset h) s0 fun u => u.entry h k q.entry = some ⟨d, BitVec.ofNat 128 v, 0, []⟩ ∧ (u.hub h).reqs = (m.hub h).reqs ∧
            SameMem m u) ∧
        (m.entry h k q.entry ≠ none ∨ m.recordOk h k d v = false → Completes (.tset h) s0 (refused m))) ∧
      (q.hop = 7 →
        let k := q.aux % 4
        (∀ x, s.entry h k q.entry = some x → x.polder = q.polder.getD 8 → Completes (.tclr h) s0 fun u => u.entry h k q.entry = none ∧
          (u.hub h).reqs = qs ∧ SameMem s u ∧ u.paths = s.paths) ∧
        ((∀ x, s.entry h k q.entry = some x → x.polder ≠ q.polder.getD 8) → Completes (.tclr h) s0 (refused s))))) ∧
  ∀ (s : State) (n : PathIx) (c : ClassIx) (m : Msg) (ms : List Msg), s.isFrozen = false → sget [] (s.lpath n).q c = m :: ms →
    let l := s.landLines n m
    let k := creditKey n (bits m.w0.toNat 59 54)
    (m.credit = true → l ≤ sget 0 s.credits k → Completes (.sringSend n c) s fun u => sget 0 u.credits k = sget 0 s.credits k - l ∧
      sget [] (u.lpath n).q c = { m with credit := false } :: ms ∧ u.regs = s.regs ∧ SameMem s u ∧ u.tiles = s.tiles) ∧
    ((m.credit = false ∨ sget 0 s.credits k < l) → Completes (.sringSend n c) s fun u => u = s)

/-- An arriving message that names no entry of its kind completes with its code and is dropped; the lines of a whole RING message land in free
slots beyond the tail and its ring advances by its entries, a SLUICE message is written line by line in its sluice and one outside it
completes with SLUICE_VIOLATION, a SLOT block is placed, or waits for its order record, RGADD and GRANT act once, a CMPL record ends the
request it names. -/
def Obligations.ArrivingMessagesLandAndComplete : Prop :=
  (∀ (s : State) (t n : Nat) (b : Bytes), let y := s.tile t
    SlotFree s t (y.tailLine n) → b.length = 64 → ringEsz (y.ring n) = 64 → 0 < y.roomAt n 0 → y.liveLine (y.tailLine n) = false →
    y.tailLine n < 65536 → ∃ m, State.landRing t n [b] 0 false (0, 0) s = (false, (1, 1), m) ∧
      m.bytes (padAddr t (64 * y.tailLine n)) 64 = b ∧ SameMemBut (padAddr t (64 * y.tailLine n)) 64 s m ∧ m.regs = s.regs) ∧
  (∀ (s : State) (t line : Nat) (b : Bytes), SlotFree s t line → b.length = 64 → (s.tile t).liveLine line = false → line < 65536 →
    let m := State.putLines t [b] line s
    m.bytes (padAddr t (64 * line)) 64 = b ∧ SameMemBut (padAddr t (64 * line)) 64 s m ∧ m.regs = s.regs) ∧
  (∀ (s : State) (p : PortIx) (c : ClassIx) (m : RxMsg) (ms : List RxMsg),
    let ends := fun (w : State) (st lines : Nat) (u : State) => sget [] (u.lport p).rx c = (sget [] (w.lport p).rx c).drop 1 ∧
      sget [] (u.lport p).cmpls c = sget [] (w.lport p).cmpls c ++ [(m.msgid, st, lines)] ∧ SameMem w u
    s.isFrozen = false → sget [] (s.lport p).rx c = m :: ms → m.fail = none → m.begun = false → m.eom = true → m.mute = false →
    m.mixed = false → m.pos = 0 → m.lines = 0 → m.flag = false → m.blk = 0 → m.buf.length = m.nbytes → m.declared = none →
    ((List.range 6).any fun a => s.tagOk m.tenant (attached p a)) = true →
    (m.op = 1 →
      (s.entry p 0 m.entry = none → Completes (.ringMessage p c) s fun u => ends s 2 0 u ∧ u.tiles = s.tiles) ∧
      ∀ x k e w, s.entry p 0 m.entry = some x → (s.ringStart p m).1 = none →
        let t := attached p (x.f 2 0)
        let n := x.f 7 3
        State.landRing t n (m.linesNow none).1 0 false (0, 0) (s.ringStart p m).2 = (false, (k, e), w) →
        Completes (.ringMessage p c) s fun u => ends w 0 k u ∧
          (u.tile t).reg .RING_PTR [n] = ((w.tile t).advTail n e).reg .RING_PTR [n] ∧
          ((s.ringStart p m).2.entry p 0 m.entry).map Entry.gout = some (x.gout - m.nbytes / 64)) ∧
    (m.op = 2 →
      (s.entry p 1 m.entry = none → Completes (.sluiceMessage p c) s fun u => ends s 3 0 u ∧ u.tiles = s.tiles ∧
        u.fld .HUB_CNT [p] F.HUB_CNT_SLV_CNT = min (s.fld .HUB_CNT [p] F.HUB_CNT_SLV_CNT + 1) 65535) ∧
      ∀ x, s.entry p 1 m.entry = some x →
        let t := attached p (x.f 2 0)
        let w := State.putLines t (m.linesNow none).1 (x.f 31 16 + m.aux) s
        (s.tagOk m.tenant t = true → m.sgen ≠ x.f 15 8 ∨ x.f 47 32 + 1 < x.f 31 16 + m.aux + m.nbytes / 64 →
          Completes (.sluiceMessage p c) s (ends s 3 0)) ∧
        ((s.sluiceStart p m).1 = none → m.nbytes % 64 = 0 →
          Completes (.sluiceMessage p c) s fun u => ends w 0 (m.nbytes / 64) u ∧ u.regs = w.regs ∧ u.tiles = w.tiles)) ∧
    (m.op = 3 →
      (s.entry p 2 m.entry = none → Completes (.slotMessage p c) s (ends s 2 0)) ∧
      ∀ x, (s.slotStart p m).1 = none → (s.slotStart p m).2.entry p 2 m.entry = some x → bit x.desc.toNat 45 = false →
        let t := attached p (x.f 2 0)
        let region := m.aux % max 1 x.regions
        let line := ((s.slotStart p m).2.tile t).entryAddr (x.f 7 3) ((region * x.slots + x.posOf region) * x.blockLen) / 64
        let w := State.putLines t (m.linesNow none).1 line (s.slotStart p m).2
        Completes (.slotMessage p c) s fun u => SameMem w u ∧
          ((∃ v vs, sget [] (u.lport p).rx c = v :: vs ∧ v.flag = true ∧ v.msgid = m.msgid) ∨
            sget [] (u.lport p).cmpls c = sget [] (w.lport p).cmpls c ++ [(m.msgid, 0, m.nbytes / 64)])) ∧
    (m.op = 4 → m.aux % 2048 < 1152 → s.tagOk m.tenant (m.aux % 2048) = true → Completes (.rgaddMessage p c) s fun u => ends s 0 0 u ∧
      u.gadds = s.gadds ++ [⟨1152 + p.val, BitVec.ofNat 16 m.tenant, Fin.ofNat 1152 (m.aux % 2048), Fin.ofNat 16 m.sgen,
        BitVec.ofNat 32 m.amount, false⟩] ∧ u.regs = s.regs ∧ u.tiles = s.tiles) ∧
    (∀ n, m.op = 5 → s.pathOf p = some n → sget 0 s.credits (creditKey n m.entry) + m.amount + 1 < 2 ^ 24 →
      Completes (.grantMessage p c) s fun u => ends s 0 0 u ∧ u.regs = s.regs ∧ u.tiles = s.tiles ∧
        sget 0 u.credits (creditKey n m.entry) = sget 0 s.credits (creditKey n m.entry) + m.amount + 1) ∧
    (∀ e g, m.op = 6 → m.buf.length = 16 →
      let w := leNat (slice m.buf 0 8)
      ((s.lport p).wait.find? fun e => decide (e.1 = bits w 63 52)) = some e → e.2.cg = some g → bits w 51 44 ≠ 3 →
      s.dikeTile (1152 + e.2.hub) e.2.tenant e.2.tile = true → Completes (.cmpl p c) s fun u =>
        (u.lport p).wait = (s.lport p).wait.filter (fun f => decide (f.1 ≠ bits w 63 52)) ∧ sget [] (u.lport p).rx c = ms ∧
        (u.tile e.2.tile).gpend = (s.tile e.2.tile).gpend ++ [.add (g % 16) 1 (decide (bits w 51 44 ≠ 0))] ∧ SameMem s u ∧
        RegsBut [Reg.loc .SEAM_STAT []] s u)) ∧
  ∀ (s : State) (h : HubIx) (e : EntryIx) (x : Entry) (f : Fill) (j rank : Nat), s.isFrozen = false → s.entry h 2 e = some x →
    let t := attached h (x.f 2 0)
    let n := x.f 7 3
    let o := x.f 44 40
    let y := s.tile t
    let w := s.ringPut t o 0 (natLe 8 (f.batch % 65536 * 65536 + rank))
    x.fill = [f] → f.done = [j] → x.atTail y n = (f.region, j) → f.pos.find? (fun r => decide (r.1 = j)) = some (j, rank) →
    1 ≤ x.blockLen → y.tail n % x.blockLen = 0 → y.tail n + x.blockLen < ringN (y.ring n) → ringN (y.ring n) ≤ 2 ^ 18 →
    bit x.desc.toNat 45 = true → y.ringFull o = false → o ≠ n → w.hubs = s.hubs → (w.tile t).regs = y.regs →
    Completes (.orderRingResume h e) s fun u => (u.tile t).reg .RING_PTR [n] = (y.advTail n x.blockLen).reg .RING_PTR [n] ∧
      (u.tile t).reg .RING_PTR [o] = (y.advTail o 1).reg .RING_PTR [o] ∧ SameMem w u

/-- A header at a receive entry opens a context or is rejected with its cause; ciphertext is taken up by its context, or ends it where a tag
fails; the end of a baton verifies it and counts its index for its epoch slot, or rejects it; BABORT and 10 ms of silence free the
context; a verified chunk that fills one entry is delivered, and a verified baton with nothing left leaves its context free. The record
for the info ring finds its slot in the fc. -/
def Obligations.BatonsAreCheckedChunkByChunk : Prop :=
  (∀ (s : State) (p : PortIx) (c : ClassIx) (m : RxMsg) (ms : List RxMsg) (x : Entry),
    let ends := fun (st : Nat) (u : State) => sget [] (u.lport p).rx c = ms ∧
      ∃ l, sget [] (u.lport p).cmpls c = sget [] (s.lport p).cmpls c ++ [(m.msgid, st, l)]
    let rejects := fun (u : State) => u.fld .BAT_STAT [p] F.BAT_STAT_REJ = 1 ∧
      u.fld .BAT_CNT [p] F.BAT_CNT_REJ_CNT = min (s.fld .BAT_CNT [p] F.BAT_CNT_REJ_CNT + 1) 65535
    let t := attached p (x.f 2 0)
    s.isFrozen = false → sget [] (s.lport p).rx c = m :: ms → m.fail = none → m.begun = false → m.eom = true → m.mute = false →
    m.mixed = false → m.pos = 0 → m.buf.length = m.nbytes → ((List.range 6).any fun a => s.tagOk m.tenant (attached p a)) = true →
    s.entry p 3 m.entry = some x → s.tagOk m.tenant t = true → x.f 31 16 ≤ s.peerId p → s.peerId p ≤ x.f 47 32 →
    (s.hub p).info = [] → s.infoRoom p x = true → SlotFree s t ((s.tile t).tailLine (x.f 12 8)) → x.polder < 8 →
    (m.op = 8 → m.nbytes = 512 →
      s.fld .BAT_STAT [p] F.BAT_STAT_REJ = 0 → Completes (.bhdr p c) s fun u => match s.hdrCheck p m.entry x m.buf with
        | .inl cause => ends 9 u ∧ rejects u ∧ u.fld .BAT_STAT [p] F.BAT_STAT_CAUSE = cause ∧ (u.hub p).recv = (s.hub p).recv
        | .inr k => ends 0 u ∧
          u.recv p (s.freeRecv p) = some ⟨m.entry, x.polder, some p, m.buf, k, sget [] s.keys k, [], [], [], 0, [], 0, s.wt, false⟩) ∧
    ∀ i r, s.recvOf p m.entry = some (i, r) → r.slot < 256 → r.entry = m.entry →
      let f := r.feed m.buf 0 (m.buf.length + 2)
      (m.op = 9 → f.2.2 = none → f.2.1 = m.buf.length → Completes (.bdataMessage p c) s fun u => ends 0 u ∧
        u.recv p i = some { f.1 with last := s.wt } ∧ u.tiles = s.tiles ∧ SameMem s u) ∧
      (∀ cause, m.op = 9 → f.2.2 = some cause → Completes (.bdataMessage p c) s fun u => ends 9 u ∧ u.recv p i = none ∧ rejects u) ∧
      (m.op = 10 → Completes (.bend p c) s fun u => match (s.endCheck x.polder (x.f 14 13) r m.buf).2 with
        | none => ends 0 u ∧ u.fld .BAT_CNT [p] F.BAT_CNT_OK_CNT = (s.fld .BAT_CNT [p] F.BAT_CNT_OK_CNT + 1) % 2 ^ 32 ∧
          sget [] u.verified (epKey x.polder (x.f 14 13)) = sget [] s.verified (epKey x.polder (x.f 14 13)) ++ [hdrIndex r.hdr]
        | some _ => ends 9 u ∧ u.recv p i = none ∧ u.verified = s.verified) ∧
      (m.op = 11 → Completes (.babort p c) s fun u => ends 9 u ∧ u.recv p i = none ∧ u.verified = s.verified)) ∧
  ∀ (s : State) (h : HubIx) (i : CtxIx) (r : RecvCtx), s.recv h i = some r → r.slot < 256 →
    (r.verified = false → s.ctxHeld r = false → s.ctxFed r = false →
      let m := s.toWt (r.last + 10000000 * 256)
      m.recv h i = some r →
      Completes (.batonContextTimeout h i) s (fun u => u = m.ctxReject h i r 11) ∧
      (m.entry h 3 r.entry = none → Completes (.batonContextTimeout h i) s fun u => u.recv h i = none ∧ SameMem m u ∧
        u.fld .BAT_STAT [h] F.BAT_STAT_REJ = 1 ∧ (m.fld .BAT_STAT [h] F.BAT_STAT_REJ = 0 → u.fld .BAT_STAT [h] F.BAT_STAT_CAUSE = 11))) ∧
    ∀ x, s.isFrozen = false → (s.hub h).info = [] → s.entry h 3 r.entry = some x → x.polder = r.polder →
      let t := attached h (x.f 2 0)
      let n := x.f 7 3
      let y := s.tile t
      (r.staged = [] → r.verified = true → s.infoRoom h x = true → SlotFree s t (y.tailLine (x.f 12 8)) →
        Completes (.chunkDeliver h i) s fun u => u.recv h i = none) ∧
      ∀ b, r.staged = [b] → r.verified = false → b.length = ringEsz (y.ring n) → y.hubRing n = true → y.ringFull n = false →
        let w := (s.infoFlush h).ringEntry t n b
        Completes (.chunkDeliver h i) s fun u => u.recv h i = some { r with staged := [], delivered := r.delivered + b.length / 64 } ∧
          u.tiles = w.tiles ∧ SameMem w u

/-- Every block the packer makes passes the receiver's header checks at its own place and has the packed size of its mode; an element within
the largest level lies nearer to its level than half of the largest step between levels (before a BF16 rounding). -/
def Obligations.PackedBlocksPassTheirChecksWithinTheirBound : Prop :=
  ∀ (d : Decl) (idx : Nat) (src : Bytes),
    let xs := blockElems d src
    let ms := levelsOf d.levels xs
    let u := levelUnit (sharedExp xs)
    blockCause d idx (packBlock d idx src) = none ∧ (packBlock d idx src).length = 64 * d.packed ∧
    ∀ w ∈ xs, fin32 w = true → mag32 w ≤ ueUnits (ms.getD (d.levels - 1) 0) * u →
      ∀ g, (∀ j < d.levels - 1, ueUnits (ms.getD (j + 1) 0) - ueUnits (ms.getD j 0) ≤ g) →
        2 * natDist (mag32 w) (ueUnits (ms.getD (nearIndex ms (mag32 w) u) 0) * u) ≤ g * u

/-- A slow-tier request in its window becomes UIO requests that cross no 256 B boundary and cover its lines, an SWRITE with the data of its
pad lines; one outside is refused and counted, and while the queue of UIO requests has no room it waits. The oldest waiting UIO request is
issued while fewer than 512 are outstanding; the last completion or timeout of a request ends it; data lands only in the lines it was read
for. The host hub sets and clears receive entries as a link hub does. -/
def Obligations.SlowTierRequestsBecomeUioTransfers : Prop :=
  (∀ (s0 : State) (q : HubReq) (d : Nat), s0.isFrozen = false → (s0.hub 16).reqs.find? (fun q => decide (q.hop ≠ 12)) = some q →
    q.hrsvd = true → q.polder = some d → d < 8 →
    let s := s0.modHub 16 fun x => { x with reqs := x.reqs.erase q }
    let parts := fun (kind len : Nat) (wr : Bool) (data : Bytes) (m u : State) => (u.hub 16).reqs = (m.hub 16).reqs ∧ SameMem m u ∧
      ∃ j ps, u.slow = m.slow ++ [j] ∧ j.req = q ∧ j.polder = d ∧ j.kind = kind ∧ j.left = ps.length ∧ u.uio = m.uio ++ ps ∧
        (ps.map UioPart.len).sum = len ∧ ∀ y ∈ ps, y.job = j.id ∧ y.wr = wr ∧ y.at_ = none ∧ y.addr = m.slowAddr d q.offset + y.off ∧
          1 ≤ y.len ∧ y.addr % 256 + y.len ≤ 256 ∧ y.data = (if wr then slice data y.off y.len else [])
    let refused := fun (m u : State) => (u.hub 16).reqs = (m.hub 16).reqs ∧ SameMem m u ∧ u.uio = m.uio ∧ u.slow = m.slow ∧
      u.fld .SLOW_CNT [d] F.SLOW_CNT_BADREQ_CNT = min (m.fld .SLOW_CNT [d] F.SLOW_CNT_BADREQ_CNT + 1) 65535
    let inWin := s0.slowTile q = true ∧ s0.slowIn d q.offset (q.nl + 1) = true
    (s0.uioFull = true → q.hop = 1 ∨ q.hop = 2 ∨ q.hop = 11 →
      Completes .sread s0 (· = s0) ∧ Completes .swrite s0 (· = s0) ∧ Completes .bfetch s0 (· = s0)) ∧ (s0.uioFull = false →
    (q.hop = 1 → (inWin → s0.slowWay d = true → Completes .sread s0 (parts 0 (64 * (q.nl + 1)) false [] s)) ∧
      (¬inWin → Completes .sread s0 (refused s))) ∧
    (q.hop = 2 → (inWin → s0.slowWay d = true →
      ∀ b m, (s.routeFree q.htile 1168).freeLoad q.htile (64 * q.hline) (64 * (q.nl + 1)) 6 16 = .ok b m →
        Completes .swrite s0 (parts 1 (64 * (q.nl + 1)) true b m)) ∧ (¬inWin → Completes .swrite s0 (refused s))) ∧
    (q.hop = 11 → (q.htile < 64 → q.hline = 0 → q.nl = 0 → s0.slowIn d q.offset 8 = true → s0.slowWay d = true →
      Completes .bfetch s0 (parts 2 512 false [] s)) ∧ (s0.slowIn d q.offset 8 = false → Completes .bfetch s0 (refused s)))) ∧
    (∀ b m, q.hop = 6 → q.offh = 0 → q.nl = 0 → q.offl < 64 → q.htile < 1152 → s0.tilePolder q.htile = some d →
      s.recordGet q.htile q.hline = .ok b m →
      (m.entry 16 3 q.offl = none → (m.hub 16).recvEntries < 16 → m.recordOk 16 3 d (leNat b) = true → Completes (.tset 16) s0 fun u =>
        u.entry 16 3 q.offl = some ⟨d, BitVec.ofNat 128 (leNat b), 0, []⟩ ∧ SameMem m u) ∧
      (m.entry 16 3 q.offl ≠ none → Completes (.tset 16) s0 (refused m))) ∧
    (∀ x, q.hop = 7 → q.offh = 0 → q.nl = 0 → q.offl < 64 → q.htile = 0 → q.hline = 0 → s0.entry 16 3 q.offl = some x → x.polder = d →
      Completes (.tclr 16) s0 fun u => u.entry 16 3 q.offl = none ∧ SameMem s u)) ∧
  (∀ (s : State) (y : UioPart), s.isFrozen = false → (∀ j ∈ s.slow, j.kind ≠ 2) → s.uio.find? (fun y => y.at_.isNone) = some y →
    (s.uio.filter fun y => y.at_.isSome).length < 512 → Completes .uioIssue s fun u =>
      u.out = s.out ++ [.uio y.id y.wr y.dpid y.stream y.addr y.len y.data] ∧ SameMem s u ∧ u.slow = s.slow ∧
      u.uio = s.uio.map (fun x => if x.id = y.id then { x with at_ := some s.wt } else x) ∧ RegsBut [Reg.loc .UIO_STAT []] s u) ∧
  ∀ (s : State) (id : Nat) (y : UioPart) (j : SlowJob), s.isFrozen = false →
    let outst := fun (m : State) => m.uio.find? (fun y => decide (y.id = id) && y.at_.isSome) = some y ∧
      m.slow.find? (fun j => decide (j.id = y.job)) = some j
    let ended := fun (m u : State) => u.slow = m.slow.filter (fun k => decide (k.id ≠ j.id)) ∧
      u.uio = (m.uio.erase y).filter fun z => z.at_.isSome || decide (z.job ≠ j.id)
    let line := j.req.hline + y.off / 64
    outst s → j.left = 1 → j.kind < 2 → (∀ d, j.req.polder = some d → d < 8) →
    (∀ data, j.kind = 1 → Completes (.uioCompletion id true data) s fun u => ended s u ∧ SameMem s u) ∧
    (∀ data, j.kind = 0 → y.len = 64 → s.dikeTile 1168 j.req.tenant j.req.htile = true → SlotFree s j.req.htile line → line < 65536 →
      (s.tile j.req.htile).liveLine line = false → Completes (.uioCompletion id true data) s fun u => ended s u ∧
        u.bytes (padAddr j.req.htile (64 * line)) 64 = padTo data 64 ∧ SameMemBut (padAddr j.req.htile (64 * line)) 64 s u) ∧
    (∀ m, m = s.toWt (y.at_.getD 0 + 100000 * 256) → outst m → Completes (.uioTimeout id) s fun u => ended m u ∧ SameMem m u ∧
        u.fld .UIO_STAT [] F.UIO_STAT_TMO_CNT = min (m.fld .UIO_STAT [] F.UIO_STAT_TMO_CNT + 1) 65535)

/-- OPEN takes an EMPTY slot to LOADING, or to READY with nothing to load; SWITCH makes a READY slot LIVE from its boundary and the previous
LIVE slot DRAINING to the batch before it, on the admission chip when it reaches the admission tile; ABANDON empties a slot that is not
LIVE; a command that does not apply sets REJ. EP_ADMIT takes the next batch; EP_DONE moves the watermark forward only. -/
def Obligations.EpochSlotsFollowTheirCommands : Prop :=
  (∀ (s : State) (d : PolderIx) (sl : SlotIx),
    let n := s.fld .EP_SH [d, sl] F.EP_SH_NBAT + s.fld .EP_SH [d, sl] F.EP_SH_NCOM
    let ep := fun k => s.fld .EP_ID [d, k] F.EP_ID_EPOCH
    let ok := s.epState d sl = 0 ∧ ep sl ≠ 0xFFFFFFFF ∧ n ≤ 4096 ∧ ∀ k < 4, k ≠ sl.val → s.epState d k ≠ 0 → ep k ≠ ep sl
    let rej := fun (u : State) => OnlyRegs s u ∧ u.fld .EP_CFG [d] F.EP_CFG_REJ = 1 ∧ RegsBut [Reg.loc .EP_CFG [d]] s u
    let live := fun (b : Nat) (m u : State) => u.epState d sl = 3 ∧ u.fld .EP_RANGE [d, sl] F.EP_RANGE_FIRST_B = b ∧
      u.fld .EP_SH [d, sl] F.EP_SH_FV = 1 ∧ ∀ k < 4, k ≠ sl.val → m.epState d k = 3 → (u.epState d k = 4 ∨ u.epState d k = 0) ∧
        u.fld .EP_RANGE [d, k] F.EP_RANGE_LAST_B = (b + 2 ^ 32 - 1) % 2 ^ 32
    (ok → Completes (.epochOpen d sl) s fun u => u.epState d sl = (if n = 0 then 2 else 1) ∧ u.fld .EP_SH [d, sl] F.EP_SH_VCNT = 0 ∧
      sget [] u.verified (epKey d sl) = [] ∧ RegsBut [Reg.loc .EP_SH [d, sl]] s u ∧ SameMem s u ∧ u.tiles = s.tiles) ∧
    (¬ok → Completes (.epochOpen d sl) s rej) ∧
    (∀ arg, s.epState d sl ≠ 2 → Completes (.epochSwitch d sl arg) s rej) ∧
    (∀ arg, s.epState d sl = 2 → s.fld .EP_CFG [d] F.EP_CFG_ADM = 1 → Completes (.epochSwitch d sl arg) s fun u =>
      sget [] u.admSwitch d = sget [] s.admSwitch d ++ [sl.val] ∧ u.regs = s.regs ∧ SameMem s u) ∧
    (∀ arg, s.epState d sl = 2 → s.fld .EP_CFG [d] F.EP_CFG_ADM = 0 → Completes (.epochSwitch d sl arg) s (live arg.toNat s)) ∧
    (∀ m rest, m = { s with admSwitch := sput [] s.admSwitch d rest }.nextFc (s.fld .EP_CFG [d] F.EP_CFG_ATILE) →
      s.domOn d = true → sget [] s.admSwitch d = sl.val :: rest → s.epState d sl = 2 → m.domOn d = true → m.epState d sl = 2 →
      Completes (.admissionSwitch d) s (live (m.fld .EP_STAT [d] F.EP_STAT_NEXT_B) m)) ∧
    ((s.epState d sl = 1 ∨ s.epState d sl = 2) → Completes (.epochAbandon d sl) s fun u => u.epState d sl = 0) ∧
    (s.epState d sl ≠ 1 → s.epState d sl ≠ 2 → Completes (.epochAbandon d sl) s rej)) ∧
  (∀ (s0 : State) (t : TileIx) (th : ThreadIx) (w : BitVec 26) (d : Nat), let s := s0.atIssue t th
    Ready s0 t th → csrOff (s0.thr t th) w = Reg.loc .EP_ADMIT [] → s.tilePolder t = some d →
    let adm := s.fld .EP_CFG [d] F.EP_CFG_ADM = 1 ∧ s.fld .EP_CFG [d] F.EP_CFG_ATILE = t.val
    let b := s.fld .EP_STAT [d] F.EP_STAT_NEXT_B
    (∀ k, (List.range 4).find? (fun k => decide (s.epState d k = 3)) = some k → adm → Completes (.epAdmit t th w) s0 fun u =>
      WritesS (fRD w) (BitVec.ofNat 64 (b * 2 ^ 32 + s.fld .EP_ID [d, k] F.EP_ID_EPOCH)) (s.thr t th) (u.thr t th) ∧
        u.fld .EP_STAT [d] F.EP_STAT_NEXT_B = (b + 1) % 2 ^ 32 ∧ RegsBut [Reg.loc .EP_STAT [d]] s u ∧ SameMem s u) ∧
    (((∀ k < 4, s.epState d k ≠ 3) ∨ ¬adm) → Completes (.epAdmit t th w) s0 fun u =>
      WritesS (fRD w) (BitVec.allOnes 64) (s.thr t th) (u.thr t th) ∧ u.regs = s.regs ∧ SameMem s u)) ∧
  ∀ (s : State) (t : TileIx) (d : Nat) (b : BitVec 32), s.isFrozen = false → s.tilePolder t = some d →
    let k := (b.toNat + 2 ^ 32 - s.fld .EP_STAT [d] F.EP_STAT_DONE_B) % 2 ^ 32
    (1 ≤ k → k < 2 ^ 31 → Completes (.epDone t b) s fun u => u.fld .EP_STAT [d] F.EP_STAT_DONE_B = b.toNat) ∧
    ((k = 0 ∨ 2 ^ 31 ≤ k) → Completes (.epDone t b) s fun u => u.regs = s.regs ∧ SameMem s u ∧ u.epDones = s.epDones.erase (t.val, b))

/-- A heat record counts in four counters of the sketch of its table, each saturating, or is dropped and counted; HEAT_TBL is written while
disabled, and enabling clears its sketch; TAKE, CLEAR and HALVE act on one sketch; HEAT_QRY shows the least of four counters. An
UPDATE_POINT schedules a pass, a pass over no sketch ends, ORDER_DONE of a RELOAD order lets its channel run again, SUSPECT marks its
tile. -/
def Obligations.HeatIsCountedAndRetiered : Prop :=
  (∀ (s : State) (t : TileIx) (v : W64), s.isFrozen = false →
    let n := (s.tilePolder t).bind fun d => s.sketchOf d (F.HEAT_IN_TABLE.get v)
    (n = none → Completes (.heatIn t v) s fun u => u.sketches = s.sketches ∧ SameMem s u ∧ RegsBut [Reg.loc .HEAT_CNT []] s u ∧
      u.fld .HEAT_CNT [] F.HEAT_CNT_DROP_CNT = min (s.fld .HEAT_CNT [] F.HEAT_CNT_DROP_CNT + 1) 65535) ∧
    ∀ k, n = some k → Completes (.heatIn t v) s fun u => SameMem s u ∧ RegsBut [Reg.loc .HEAT_CNT []] s u ∧
      u.fld .HEAT_CNT [] F.HEAT_CNT_IN_CNT = (s.fld .HEAT_CNT [] F.HEAT_CNT_IN_CNT + 1) % 2 ^ 32 ∧ (∀ j, j ≠ k → u.sketch j = s.sketch j) ∧
      (∀ i < 4, let c := heatIx i (F.HEAT_IN_ROW.get v)
        sget 0 (u.sketch k).cnt c = min 0xFFFF (sget 0 (s.sketch k).cnt c + 1)) ∧
      (F.HEAT_IN_SLOW.get v = 0 → (u.sketch k).cand = (s.sketch k).cand)) ∧
  (∀ (s : State) (n : SketchIx) (v : W64),
    let on := s.fld .HEAT_TBL [n] F.HEAT_TBL_EN = 1
    let en := F.HEAT_TBL_EN.get v = 1
    let sk := F.HEAT_CTL_SK.get v
    let e := s.fld .HEAT_SEL [] F.HEAT_SEL_SK
    (on → en → Completes (.heatTblWrite .mgmt n v) s fun u => OnlyRegs s u ∧
      u.fld .EP_CFG [s.fld .HEAT_TBL [n] F.HEAT_TBL_POLDER] F.EP_CFG_REJ = 1 ∧ u.reg .HEAT_TBL [n] = s.reg .HEAT_TBL [n]) ∧
    (¬(on ∧ en) → Completes (.heatTblWrite .mgmt n v) s fun u => SameMem s u ∧ RegsBut [Reg.loc .HEAT_TBL [n]] s u ∧
      u.reg .HEAT_TBL [n] = writeFields Reg.HEAT_TBL.info.flds (s.reg .HEAT_TBL [n]) v ∧
      u.sketch n = (if en then Sketch.init else s.sketch n)) ∧
    (F.HEAT_CTL_CLEAR.get v = 0 → F.HEAT_CTL_HALVE.get v = 0 → Completes (.heatTake .mgmt v) s fun u => u.regs = s.regs ∧ SameMem s u ∧
      sget none (u.sketch e).cand (s.fld .HEAT_SEL [] F.HEAT_SEL_ENTRY) = none ∧ (u.sketch e).cnt = (s.sketch e).cnt ∧
      ∀ j, j ≠ e → u.sketch j = s.sketch j) ∧
    (F.HEAT_CTL_TAKE.get v = 0 → F.HEAT_CTL_HALVE.get v = 0 → Completes (.heatClear .mgmt v) s fun u => u.regs = s.regs ∧ SameMem s u ∧
      u.sketch sk = Sketch.init ∧ ∀ j, j ≠ sk → u.sketch j = s.sketch j) ∧
    (F.HEAT_CTL_TAKE.get v = 0 → F.HEAT_CTL_CLEAR.get v = 0 → Completes (.heatHalve .mgmt v) s fun u => u.regs = s.regs ∧ SameMem s u ∧
      (u.sketch sk).cand = (s.sketch sk).cand ∧ (∀ i c, (i, c) ∈ (s.sketch sk).cnt → 2 ≤ c → (i, c / 2) ∈ (u.sketch sk).cnt) ∧
      (∀ i c, (i, c) ∈ (u.sketch sk).cnt → ∃ b, (i, b) ∈ (s.sketch sk).cnt ∧ c = b / 2) ∧ ∀ j, j ≠ sk → u.sketch j = s.sketch j) ∧
    (∀ x r, x = s.sketch (F.HEAT_QRY_SK.get v) → r = F.HEAT_QRY_ROW.get v →
      Completes (.heatQry .mgmt v) s fun u => OnlyRegs s u ∧ RegsBut [Reg.loc .HEAT_EST []] s u ∧
        u.fld .HEAT_EST [] F.HEAT_EST_VALID = 1 ∧ ∃ m, u.fld .HEAT_EST [] F.HEAT_EST_EST = m % 2 ^ 16 ∧
        (∀ i < 4, m ≤ sget 0 x.cnt (heatIx i r)) ∧ ∃ i < 4, m = sget 0 x.cnt (heatIx i r))) ∧
  (∀ (s : State) (q : HubReq) (qs : List HubReq) (d : Nat), s.mgmt = q :: qs → s.frzState ≠ 3 → q.polder = some d → d < 8 →
    let taken := fun (u : State) => u.mgmt = qs ∧
      u.fld .MGMT_STAT [] F.MGMT_STAT_MSG_CNT = (s.fld .MGMT_STAT [] F.MGMT_STAT_MSG_CNT + 1) % 2 ^ 32
    (bits q.w0.toNat 27 20 = 1 → bits q.w0.toNat 19 0 = 0 → q.w1 = 0 → Completes .updatePoint s fun u => taken u ∧ SameMem s u ∧
      u.tiles = s.tiles ∧ u.reg .RCPT_UPD [d] = s.reg .RCPT_UPD [d] + 1 ∧ (u.retier d).todo = (s.retier d).todo + 1 ∧
      (u.retier d).count = (s.retier d).count + 1) ∧
    (bits q.w0.toNat 27 20 = 1 → q.w1 ≠ 0 → Completes .updatePoint s fun u => taken u ∧ u.retiers = s.retiers ∧ SameMem s u ∧
      u.fld .MGMT_STAT [] F.MGMT_STAT_BADMSG_CNT = min (s.fld .MGMT_STAT [] F.MGMT_STAT_BADMSG_CNT + 1) 65535) ∧
    (∀ (y : Reload) (c : Nat), bits q.w0.toNat 27 20 = 2 → bits q.w0.toNat 19 0 = 0 → bits q.w1.toNat 63 32 = 0 →
      s.reloads.find? (fun x => decide (x.polder = d) && decide (x.order = bits q.w1.toNat 31 0)) = some y → y.chs = [c] → c < 64 →
      (∀ z ∈ s.reloads.erase y, c ∉ z.chs) → s.chState c = 4 → s.fld .GUN_CHAN [c] F.GUN_CHAN_RERUN = 1 →
      s.fld .GUN_STAT [c] F.GUN_STAT_RETRY < 2 → Completes .orderDone s fun u => taken u ∧ u.reloads = s.reloads.erase y ∧
        u.chState c = 2 ∧ SameMem s u) ∧
    (bits q.w0.toNat 27 20 = 2 → bits q.w0.toNat 19 2 = 0 → bits q.w1.toNat 63 32 = 0 →
      s.reloads.find? (fun x => decide (x.polder = d) && decide (x.order = bits q.w1.toNat 31 0)) = none →
      Completes .orderDone s fun u => taken u ∧ (u.retier d).reported = (s.retier d).reported + 1 ∧ SameMem s u ∧ u.tiles = s.tiles) ∧
    (bits q.w0.toNat 27 20 = 3 → bits q.w0.toNat 19 11 = 0 → bits q.w0.toNat 10 0 < 1152 → q.w1 = 0 → Completes .suspect s fun u =>
      taken u ∧ bits q.w0.toNat 10 0 ∈ u.testMarks ∧ SameMem s u ∧ u.tiles = s.tiles)) ∧
  ∀ (s : State) (d : PolderIx), (s.retier d).wait = [] → (s.retier d).pass = none → 1 ≤ (s.retier d).todo →
    (∀ k < 64, s.fld .HEAT_TBL [k] F.HEAT_TBL_EN = 1 → s.fld .HEAT_TBL [k] F.HEAT_TBL_RETIER = 1 →
      s.fld .HEAT_TBL [k] F.HEAT_TBL_POLDER ≠ d.val) →
    Completes (.retierPass d) s fun u => (u.retier d).todo = (s.retier d).todo - 1 ∧ (u.retier d).pass = none ∧ u.regs = s.regs ∧
      SameMem s u ∧ u.tiles = s.tiles ∧ u.sketches = s.sketches

/-- A receipt request is refused with the cause of its first failing check, or its extents are hashed; the oldest receipt with room is written
and chained; a due seal closes its interval. Receipts are configured only while the polder is not RUNNING. The energy of a sample is split
among the polders and the idle meter without loss; the end of a window fixes its meters and its seals, and its statements are numbered one
per polder; the hourly record is kept in flash. -/
def Obligations.ReceiptsSealsAndMetersAreKept : Prop :=
  (∀ (s : State) (t l : Nat), SlotFree s t l → s.lineOk t l = true → ∃ m, SlotsOnly s m ∧
    State.readExtents [(1, l, t)] s [] = (some (s.bytes (padAddr t (64 * l)) 64), m)) ∧
  (∀ (s0 : State) (q : HubReq) (d : Nat), s0.isFrozen = false → (s0.hub 16).reqs.find? (fun q => decide (q.hop = 12)) = some q →
    q.polder = some d → d < 8 →
    let s := s0.modHub 16 fun x => { x with reqs := x.reqs.erase q }
    let refused := fun (m : State) (cause : Nat) (u : State) => (u.hub 16).reqs = (m.hub 16).reqs ∧ u.rcptJobs = m.rcptJobs ∧ SameMem m u ∧
      RegsBut [Reg.loc .RCPT_STAT [d], Reg.loc .SLOW_CNT [d], Reg.loc .DIKE_STAT [], Reg.loc .SEAM_STAT []] m u ∧
      u.fld .RCPT_STAT [d] F.RCPT_STAT_REJ = 1 ∧
      (m.fld .RCPT_STAT [d] F.RCPT_STAT_REJ = 0 → u.fld .RCPT_STAT [d] F.RCPT_STAT_CAUSE = cause)
    (¬(q.htile < 1152 ∧ s.tilePolder q.htile = some d) → Completes .receipt s0 (refused s 2)) ∧
    ∀ b m, q.htile < 1152 → s.tilePolder q.htile = some d → s.freeLoad q.htile (64 * q.hline) 64 8 1 = .ok b m →
      let shape := q.offh = 0 ∧ q.nl = 0 ∧ q.offl = 0 ∧ q.hrsvd = true ∧ rcptRecOk b = true
      let ext := fun e : Nat × Nat × Nat => (e.2.2 < 1152 ∧ m.tilePolder e.2.2 = some d) ∧ e.2.1 + e.1 ≤ 65536
      let es := rcptExtents b false ++ rcptExtents b true
      let slot := (List.range 4).find? fun k => decide (m.epState d k ≠ 0) && decide (m.fld .EP_ID [d, k] F.EP_ID_EPOCH = hdrF b 4 4)
      let on := m.fld .RCPT_CFG [d] F.RCPT_CFG_EN = 1 ∧ m.polderState d = 2
      (¬shape → Completes .receipt s0 (refused m 1)) ∧
      (shape → (∃ e ∈ es, ¬ext e) → Completes .receipt s0 (refused m 2)) ∧
      (shape → (∀ e ∈ es, ext e) → slot = none → Completes .receipt s0 (refused m 3)) ∧
      (shape → (∀ e ∈ es, ext e) → slot ≠ none → ¬on → Completes .receipt s0 (refused m 4)) ∧
      (∀ bi bo v w, shape → (∀ e ∈ es, ext e) → slot ≠ none → on → State.readExtents (rcptExtents b false) m [] = (some bi, v) →
        State.readExtents (rcptExtents b true) v [] = (some bo, w) → Completes .receipt s0 fun u => (u.hub 16).reqs = (w.hub 16).reqs ∧
          SameMem w u ∧ u.regs = w.regs ∧ ∃ j, u.rcptJobs = w.rcptJobs ++ [j] ∧ j.req = q ∧ j.polder = d ∧ j.batch = hdrF b 0 4 ∧
          j.epoch = hdrF b 4 4 ∧ j.inp = shake256 bi 32 ∧ j.outp = shake256 bo 32 ∧ j.wt = w.wt)) ∧
  (∀ (s : State) (d t n : Nat) (b : Bytes), d < 8 → s.rcptRing d = some (t, n) → s.rcptRoom d = true → s.clocked t = false →
    (s.tile t).tail n < ringN ((s.tile t).ring n) →
    let u := s.rcptPut d b
    SameMemBut (padAddr t ((s.tile t).entryAddr n ((s.tile t).tail n))) 256 s u ∧ u.regs = s.regs ∧
      (u.tile t).reg .RING_PTR [n] = ((s.tile t).advTail n 1).reg .RING_PTR [n]) ∧
  (∀ (s : State) (d : Nat), s.isFrozen = false → d < 8 → s.rcptRoom d = true →
    (∀ j, (s.chain d).due = [] → s.rcptJobs.find? (fun j => s.rcptFirst j && s.rcptRoom j.polder) = some j → j.polder = d →
      let w := { s with rcptJobs := s.rcptJobs.erase j }.rcptPut d (s.rcptBytes j)
      Completes .receiptForm s fun u => u.rcptJobs = w.rcptJobs ∧ SameMem w u ∧ u.reg .RCPT_SEQ [d] = w.reg .RCPT_SEQ [d] + 1 ∧
        ∀ i < 4, u.reg .RCPT_HEAD [d, i] = BitVec.ofNat 64 (leNat (slice (shake256 ((s.rcptBytes j).take 248) 32) (8 * i) 8))) ∧
    (∀ (p : PolderIx) (e mseq : Nat) (ds : List (Nat × Nat)), p.val = d → (s.chain d).due = (e, mseq) :: ds →
      (∀ j ∈ s.rcptJobs, j.polder = d → e ≤ j.wt) →
      let s1 := s.setChain d { s.chain d with due := ds }
      let w := s1.rcptPut d (s1.sealBytes d 2 mseq e)
      Completes (.seal p) s fun u => u.chain d = { w.chain d with start := e, first := w.rcptSeq d } ∧ SameMem w u ∧ u.regs = w.regs)) ∧
  (∀ (s a : State) (d : Nat), d < 8 →
    let e := nsWt s.windowEnd
    let u := State.closeWindow s a
    u.regs = a.regs ∧ SameMem a u ∧ (∃ w, u.windows = a.windows ++ [w] ∧ w.ends = s.windowEnd ∧ w.meters[d]? = some (a.mtr d) ∧
      (d ∈ w.spans ↔ ((a.dom d).formed = true ∧ a.domOn d = true ∧ (a.dom d).fc = (s.dom d).fc))) ∧
    (a.fld .RCPT_CFG [d] F.RCPT_CFG_EN = 1 → a.polderState d = 2 → a.lc ≠ 3 → (a.chain d).start < e →
      (u.chain d).due = (a.chain d).due ++ [(e, (a.reg .MTR [d, 15]).toNat + (a.owed d).length)])) ∧
  (∀ (s : State) (d : PolderIx) (v : W64),
    (s.polderState d ≠ 2 → F.RCPT_CFG_EN.get v = 0 → Completes (.rcptCfgWrite .mgmt d v) s fun u => OnlyRegs s u ∧
      u.reg .RCPT_CFG [d] = writeFields Reg.RCPT_CFG.info.flds (s.reg .RCPT_CFG [d]) v ∧ RegsBut [Reg.loc .RCPT_CFG [d]] s u) ∧
    (s.polderState d = 2 → Completes (.rcptCfgWrite .mgmt d v) s fun u => OnlyRegs s u ∧ u.fld .RCPT_STAT [d] F.RCPT_STAT_CFG_REJ = 1 ∧
      RegsBut [Reg.loc .RCPT_STAT [d]] s u)) ∧
  (∀ (s : State) (uj : List (RegionIx × Nat)) (rest : Nat), Completes (.powerMonitorSample uj rest) s fun u => SameMem s u ∧ u.tiles = s.tiles ∧
    (∀ d < 8, (s.polderState d = 3 → u.reg .MTR [d, 2] = s.reg .MTR [d, 2]) ∧
      ∀ n, n = sget 0 s.energySub d + (((List.range 24).filter fun r => decide (s.polderOf r = some d)).map fun r =>
          1152 * ((uj.filter fun e => decide (e.1.val = r)).map Prod.snd).sum + 48 * rest).sum →
        s.polderState d ≠ 3 → sget 0 s.energySub d < 1152 →
        u.reg .MTR [d, 2] = s.reg .MTR [d, 2] + BitVec.ofNat 64 (n / 1152) ∧ sget 0 u.energySub d = n % 1152) ∧
    ∀ n, n = sget 0 s.energySub 8 + (((List.range 24).filter fun r => (s.polderOf r).all fun d => decide (s.polderState d = 3)).map fun r =>
        1152 * ((uj.filter fun e => decide (e.1.val = r)).map Prod.snd).sum + 48 * rest).sum →
      sget 0 s.energySub 8 < 1152 → u.reg .METER_IDLE [] = s.reg .METER_IDLE [] + BitVec.ofNat 64 (n / 1152)) ∧
  (∀ (s : State) (w : Window) (ws : List Window), s.windows = w :: ws → w.spans = [] → Completes .meterStatement s fun u => u.windows = ws ∧
    ∀ d < 8, ∀ x, s.meter d = some x → x.start < nsWt w.ends →
      u.meter d = some ⟨nsWt w.ends, w.meters.getD d [], false⟩ ∧
      (s.lc = 3 → u.reg .MTR [d, 15] = s.reg .MTR [d, 15] ∧ u.retained = s.retained) ∧
      (s.lc ≠ 3 → u.reg .MTR [d, 15] = s.reg .MTR [d, 15] + 1 ∧ ∃ b, (some d, 3, b) ∈ u.retained ∧
        slice b 8 8 = natLe 8 (s.reg .MTR [d, 15]).toNat)) ∧
  ∀ (s : State), s.terern = true → s.ceCases = [] → Completes .hourlyPersist s fun u => SameMem s u ∧ u.regs = s.regs ∧
    u.calFlash = s.cal ∧ u.flash.cseq = s.cseq ∧ u.flash.life = u.life ∧ ∀ d < 8, sget 0 u.flash.mseq d = (s.reg .MTR [d, 15]).toNat

/-- START takes an ASSIGNED polder to RUNNING with a fresh receipt chain; KILL and FINISH set Q 64 fc ahead, once; every other command is
rejected. At Q the polder is in QUARANTINE, its threads are HALTED and its channels disabled; its wipe clears all its pads, numbers one
certificate, and leaves it FREE with its regions asleep. -/
def Obligations.PoldersRunEndAndAreWiped : Prop :=
  (∀ (s : State) (d : PolderIx),
    let st := s.polderState d
    let rejected := fun (u : State) => OnlyRegs s u ∧ RegsBut [Reg.loc .POLDER_STAT [d]] s u ∧
      u.fld .POLDER_STAT [d] F.POLDER_STAT_CFG_REJ = 1 ∧ u.polderState d = st
    let ending := fun (u : State) => u = { s with quarAt := u.quarAt } ∧
      sget none u.quarAt d = some ((sget none s.quarAt d).getD ((s.dom d).fc + 64))
    let free := sget none s.quarAt d = none
    (st = 1 → free → Completes (.polderStart d) s fun u => u.polderState d = 2 ∧ u.reg .POLDER_WT [d] = BitVec.ofNat 64 s.ns ∧
      u.reg .RCPT_SEQ [d] = 0 ∧ (u.chain d).start = s.wt ∧ (u.chain d).first = 0 ∧ (u.chain d).due = [] ∧ SameMem s u ∧
      u.tiles = s.tiles) ∧
    ((st ≠ 1 ∨ ¬free) → Completes (.polderStart d) s rejected) ∧
    ((st = 1 ∨ st = 2) → Completes (.polderKill d) s ending) ∧
    (st = 2 → Completes (.polderFinish d) s ending) ∧
    (st ≠ 1 → st ≠ 2 → free → Completes (.polderKill d) s rejected) ∧
    (st ≠ 2 → free → Completes (.polderFinish d) s rejected)) ∧
  (∀ (s : State) (d : PolderIx) (q : Nat), sget none s.quarAt d = some q → q ≤ (s.dom d).fc → s.domOn d = true →
    let mask := s.app .POLDER_CFG [d] F.POLDER_CFG_RMASK
    Completes (.quarantineInstant d) s fun u => u.polderState d = 3 ∧ sget none u.quarAt d = none ∧ SameMem s u ∧
      (∃ w, sget none u.wipes d = some w ∧ w.qwt = s.wt ∧ w.mask = mask ∧ w.tenant = s.tenant d ∧ w.begun = none) ∧
      (∀ t ∈ tilesOfMask mask, ∀ th, (u.thr t th).st = .halted) ∧ (∀ t ∉ tilesOfMask mask, u.tile t = s.tile t) ∧
      ∀ c < 64, s.chDom c = d → u.fld .GUN_CHAN [c] F.GUN_CHAN_EN = 0) ∧
  ∀ (s : State) (d : PolderIx) (w : Wipe), sget none s.wipes d = some w → s.domOn d = true → w.mask < 2 ^ 24 →
    (w.begun = none → Completes (.wipeStart d) s fun u => u.fld .POLDER_STAT [d] F.POLDER_STAT_WDONE = 0 ∧ SameMem s u ∧
      u.tiles = s.tiles ∧ sget none u.wipes d = some { w with begun := some (s.dom d).fc }) ∧
    (∀ b failed, w.begun = some b → b + 2 ^ 20 ≤ (s.dom d).fc → Completes (.wipeComplete d failed) s fun u =>
      u.polderState d = 0 ∧ sget none u.wipes d = none ∧ (u.dom d).formed = false ∧ u.cseq = s.cseq + 1 ∧
      u.fld .POLDER_STAT [d] F.POLDER_STAT_WDONE = w.mask ∧
      (∀ r < 24, bit w.mask r = true → bit failed.toNat r = true → bit (u.fld .POLDER_STAT [d] F.POLDER_STAT_WFAIL) r = true) ∧
      (∀ t ∈ tilesOfMask w.mask, ∀ a < 0x400000, u.byte (padAddr t a) = 0) ∧ ∀ r ∈ regionsOf w.mask, u.regState r = 1)

/-- COMMIT_GO runs the checks of Table 14-2: PENDING if they pass, else rejected with the CODE and ITEM of the first that fails; a wt instant
closer than 100 µs fails check 1; a further GO sets CFG_REJ. ABORT rejects what is PENDING. At its instant a commit whose checks fail
again is rejected LATE, else the commit is DONE and every setting is applied, in a domain whose next fc begins at that instant in that fc;
one for the gun of a channel that is disabled is rejected with code 1. -/
def Obligations.CommitsAreCheckedAndApplied : Prop :=
  (∀ (s : State) (v : W64), F.COMMIT_CTL_ABORT.get v = 0 →
    let gun := if F.COMMIT_CTL_AT_GUN.get v = 1 then some (F.COMMIT_CTL_CH.get v) else none
    let early := gun = none ∧ (s.reg .COMMIT_AT []).toNat < s.ns + 100000
    let rejected := fun (code item : Nat) (u : State) => u.commit = none ∧ u.fld .COMMIT_STAT [] F.COMMIT_STAT_STATE = 3 ∧
      u.fld .COMMIT_STAT [] F.COMMIT_STAT_CODE = code ∧ u.fld .COMMIT_STAT [] F.COMMIT_STAT_ITEM = item ∧
      u.fld .COMMIT_STAT [] F.COMMIT_STAT_REJ = 1 ∧ u.fld .COMMIT_STAT [] F.COMMIT_STAT_LATE = 0
    let only := fun (u : State) => u = { s with regs := u.regs, raised := u.raised, commit := u.commit } ∧ RegsBut [Reg.loc .COMMIT_STAT []] s u
    (s.commit = none → early → Completes (.commitGo v) s fun u => only u ∧ rejected 1 0 u) ∧
    (∀ code item, s.commit = none → ¬early → s.commitCheck gun = some (code, item) → Completes (.commitGo v) s fun u =>
      only u ∧ rejected code item u) ∧
    (s.commit = none → ¬early → s.commitCheck gun = none → Completes (.commitGo v) s fun u => only u ∧
      u.commit = some ⟨gun, none⟩ ∧ u.fld .COMMIT_STAT [] F.COMMIT_STAT_STATE = 1) ∧
    (s.commit ≠ none → Completes (.commitGo v) s fun u => only u ∧ u.commit = s.commit ∧
      u.fld .COMMIT_STAT [] F.COMMIT_STAT_CFG_REJ = 1)) ∧
  (∀ (s : State) (c : Commit), s.commit = some c → c.ans = none → Completes .commitAbort s fun u => u.commit = none ∧
    u = { s with regs := u.regs, raised := u.raised, commit := none } ∧ RegsBut [Reg.loc .COMMIT_STAT []] s u ∧
    u.fld .COMMIT_STAT [] F.COMMIT_STAT_STATE = 3 ∧ u.fld .COMMIT_STAT [] F.COMMIT_STAT_CODE = 1 ∧
    u.fld .COMMIT_STAT [] F.COMMIT_STAT_REJ = 1) ∧
  (∀ (s : State) (c k : Nat), s.frzState = 0 → s.commit = some ⟨some c, none⟩ → s.check1 (some c) = some k →
    Completes .commitApply s fun u => u.commit = none ∧ u.applied = s.applied ∧ SameMem s u ∧
      u.fld .COMMIT_STAT [] F.COMMIT_STAT_STATE = 3 ∧ u.fld .COMMIT_STAT [] F.COMMIT_STAT_CODE = 1) ∧
  ∀ (s : State), s.frzState = 0 → s.commit = some ⟨none, none⟩ → nsWt (s.reg .COMMIT_AT []).toNat ≤ s.wt →
    (∀ code item, s.commitCheck none = some (code, item) → Completes .commitApply s fun u => u.commit = none ∧ u.applied = s.applied ∧
      SameMem s u ∧ u.fld .COMMIT_STAT [] F.COMMIT_STAT_STATE = 3 ∧ u.fld .COMMIT_STAT [] F.COMMIT_STAT_CODE = code ∧
      u.fld .COMMIT_STAT [] F.COMMIT_STAT_LATE = 1) ∧
    (s.commitCheck none = none → Completes .commitApply s fun u => u.commit = none ∧
      u.fld .COMMIT_STAT [] F.COMMIT_STAT_STATE = 2 ∧ u.reg .COMMIT_WT [] = BitVec.ofNat 64 u.ns ∧
      ((∀ d < 8, (s.dom d).formed = true → (s.dom d).phase = 0 ∧ (s.dom d).debt = 0) → (∀ x ∈ chipSettings, u.applied? x = s.reg x.1 x.2) ∧ ∀ d < 8, ∀ x ∈ polderSettings d, u.applied? x = s.reg x.1 x.2))

/-- A BAR2 access that passes the checks of Table 15-4 reads or stores its bytes in its slot; one that fails is answered with its status and
counted; one to a tower in retention waits for its wake. A mailbox write at the fill cursor appends to its command ring and binds a FREE
mailbox; a foreign one is counted; released event entries free their places. PERST_N and a lost link end every session; a trained link
shows its width and speed. -/
def Obligations.HostAccessesAndMailboxesAct : Prop :=
  (∀ (s : State) (a : HostAccess) (len : Nat) (data : Bytes), s.hostUp = true → s.isFrozen = false →
    let x := bar2At a.off
    let t := a.off / 0x400000
    let one := fun n => 1 ≤ n ∧ a.off % 64 + n ≤ 64
    let line := a.off % 0x400000 / 64
    let slots := fun u : State => ∀ k, u.tile k = { s.tile k with claims := (u.tile k).claims }
    let refused := fun (r : Bar2Refusal) (u : State) => u.tiles = s.tiles ∧
      ∀ p f, r.2 = some (p, f) → u.fld p [] f = min (s.fld p [] f + 1) (2 ^ f.width - 1)
    (s.twrAsleep a.off = true → Completes (.bar2Read a len) s (fun u => u = { s with parked := s.parked ++ [(a, len, none)] }) ∧
      Completes (.bar2Write a data) s fun u => u = { s with parked := s.parked ++ [(a, data.length, some data)] }) ∧
    (s.twrAsleep a.off = false →
      (∀ r, 1 ≤ len → s.bar2Check a.req x = some r → Completes (.bar2Read a len) s fun u => refused r u ∧ SameMem s u ∧
        u.out = s.out ++ [.host a.req r.1 []]) ∧
      (∀ r, data ≠ [] → a.posted = false → s.bar2Check a.req x = some r → Completes (.bar2Write a data) s fun u => refused r u ∧
        SameMem s u ∧ u.out = s.out ++ [.host a.req r.1 []]) ∧
      (∀ r, data ≠ [] → a.posted = true → s.bar2Check a.req x = some r → Completes (.bar2Write a data) s (refused r)) ∧
      ∀ r ta p, x = .tower r ta → s.bar2Check a.req x = none → s.physLine r (ta / 64) = some p → s.bar2Lines r ta 64 = true →
        let m := (s.routeFree 1168 (1174 + r)).lineSlot r p 2
        let at_ := twrAddr r (64 * p)
        (sget [] m.symErr (symKey r p) = [] → Completes (.bar2Read a 64) s fun u => SameMem m u ∧
          u.out = m.out ++ [.host a.req 0 (m.bytes at_ 64)]) ∧
        (data.length = 64 → Completes (.bar2Write a data) s fun u => u.bytes at_ 64 = data ∧ SameMemBut at_ 64 m u)) ∧
    (one len → a.off < 0x120000000 → s.bar2Check a.req x = none → SlotFree s t line → s.lineOk t line = true →
      Completes (.bar2Read a len) s fun u => SameMem s u ∧ slots u ∧ u.out = s.out ++ [.host a.req 0 (s.bytes a.off len)]) ∧
    (one data.length → a.off < 0x120000000 → s.bar2Check a.req x = none → SlotFree s t line → s.lineOk t line = true →
      (s.tile t).liveLine line = false → (s.tile t).hostRing (a.off % 0x400000) = none →
      Completes (.bar2Write a data) s fun u => u.bytes a.off data.length = data ∧ SameMemBut a.off data.length s u ∧
        slots u ∧ u.out = s.out ++ (if a.posted then [] else [.host a.req 0 []]))) ∧
  (∀ (s : State) (a : HostAccess) (data : Bytes) (m : MboxIx) (i : Nat), s.hostUp = true → s.serving = true → i < 0x10000 →
    a.off = 0x2000000 + 0x10000 * m + i →
    let n := data.length
    let fill := 8 * s.fld .MB_STAT [m] F.MB_STAT_FILL
    ((s.mbox m).bound = true → s.mboxOwn m a.req = false → Completes (.mailboxWrite a data) s fun u => SameMem s u ∧ u.tiles = s.tiles ∧
      u.fld .MB_CNT [m] F.MB_CNT_FOREIGN = min (s.fld .MB_CNT [m] F.MB_CNT_FOREIGN + 1) 65535 ∧
      RegsBut [Reg.loc .MB_CNT [m]] s u) ∧
    (8 ≤ n → n % 8 = 0 → i = 256 * s.fld .MB_STAT [m] F.MB_STAT_CTAIL + fill → fill + n ≤ 256 → s.cmdOcc m < 16 →
      let put := fun (u : State) => u.bytes (mboxAddr m i) n = data ∧ SameMemBut (mboxAddr m i) n s u ∧ u.tiles = s.tiles ∧
        (fill + n < 256 → u.fld .MB_STAT [m] F.MB_STAT_FILL = (fill + n) / 8 ∧ u.cmdOcc m = s.cmdOcc m) ∧
        (fill + n = 256 → u.fld .MB_STAT [m] F.MB_STAT_FILL = 0 ∧ u.cmdOcc m = s.cmdOcc m + 1)
      (s.mboxOwn m a.req = true → Completes (.mailboxWrite a data) s fun u => put u ∧ RegsBut [Reg.loc .MB_STAT [m]] s u) ∧
      ((s.mbox m).bound = false → s.session a.req = none → fill = 0 → Completes (.mailboxWrite a data) s fun u => put u ∧
        u.mboxOwn m a.req = true))) ∧
  (∀ (s : State) (req : BitVec 16) (m : MboxIx) (n : BitVec 32), s.hostUp = true → s.serving = true →
    let k := n.toNat % 128
    (s.mboxOwn m req = true → s.fld .SESS [m] F.SESS_STATE ≠ 0 → s.evOcc m < k → Completes (.mbEvrel req m n) s fun u => OnlyRegs s u ∧
      u.fld .MB_STAT [m] F.MB_STAT_UND = 1 ∧ RegsBut [Reg.loc .MB_STAT [m]] s u) ∧
    (s.mboxOwn m req = true → s.fld .SESS [m] F.SESS_STATE ≠ 0 → k ≤ s.evOcc m → (s.mbox m).wait = [] →
      Completes (.mbEvrel req m n) s fun u => u.evOcc m = s.evOcc m - k ∧ SameMem s u ∧ u.tiles = s.tiles ∧
        RegsBut [Reg.loc .MB_STAT [m]] s u) ∧
    (s.mboxOwn m req = false → (s.mbox m).bound = true → Completes (.mbEvrel req m n) s fun u => OnlyRegs s u ∧
      u.fld .MB_CNT [m] F.MB_CNT_FOREIGN = min (s.fld .MB_CNT [m] F.MB_CNT_FOREIGN + 1) 65535)) ∧
  ∀ (s : State),
    let ended := fun (u : State) => SameMem s u ∧ u.tiles = s.tiles ∧ u.fld .HOST_STAT [] F.HOST_STAT_WIDTH = 0 ∧
      ∀ m < 16, u.reg .SESS [m] = 0 ∧ u.reg .MB_STAT [m] = 0 ∧ u.mbox m = Mbox.init
    Completes .perstN s (fun u => ended u ∧ u.perst = true ∧ ∀ m < 16, u.reg .MB_CNT [m] = 0) ∧
    Completes .hostLinkDown s (fun u => ended u ∧ u.perst = s.perst) ∧
    Completes .perstNDeassert s (fun u => u = { s with perst := false, bifNow := s.fld .HOST_CFG [] F.HOST_CFG_BIF }) ∧
    ∀ width speed, width ≤ 16 → speed ≤ 15 → 8 ≤ s.fld .FW_STAT [] F.FW_STAT_STAGE → s.fld .FW_STAT [] F.FW_STAT_STAGE ≤ 10 →
      s.perst = false → Completes (.hostLinkUp width speed) s fun u => OnlyRegs s u ∧ RegsBut [Reg.loc .HOST_STAT []] s u ∧
        u.fld .HOST_STAT [] F.HOST_STAT_WIDTH = min width (if s.bifNow = 0 then 16 else 8) ∧
        u.fld .HOST_STAT [] F.HOST_STAT_SPEED = speed

/-- Terern takes a command at the head of a mailbox's ring, acts and answers with a status: OPEN issues a challenge, PROVE opens the session
if its signature holds, CLOSE frees the mailbox; SET_UTC sets the calendar; STAGE stages, COMMIT goes, POLDER, PROGRAM, EPOCH and RETIER
act for the sessions that may use them, ATTEST reports. An ill-formed entry is BADCMD, a session of the wrong kind DENIED. -/
def Obligations.SessionCommandsAreAnswered : Prop :=
  ∀ (s : State) (m : MboxIx), s.sesReady m = true →
    let e := s.bytes (mboxAddr m (256 * s.fld .MB_STAT [m] F.MB_STAT_CHEAD)) 256
    let b := slice e 16 240
    let n := leNat (slice e 2 2)
    let at_ := fun i => (byteAt b i).toNat
    let ses := fun (u : State) (f : Fld) => u.fld .SESS [m] f
    let isCmd := fun (c need ext : Nat) (rsvd : List (Nat × Nat)) => byteAt e 0 = BitVec.ofNat 8 c ∧ sesShape e need ext rsvd = true
    let said := fun (st : Nat) (u : State) =>
      u.byte (mboxAddr m (0x1000 + 512 * s.fld .MB_STAT [m] F.MB_STAT_ETAIL + 8)) = BitVec.ofNat 8 st
    let done := fun (st : Nat) (u : State) => said st u ∧ u.cmdOcc m = s.cmdOcc m - 1
    let freed := fun (u : State) => u.reg .SESS [m] = 0 ∧ (u.mbox m).bound = false ∧ u.cmdOcc m = 0
    let opened := fun kind => ses s F.SESS_STATE = 2 ∧ ses s F.SESS_KIND = kind ∧ s.utcSet = true
    let may := fun d => d ≤ 7 ∧ s.sesPolderOk m d = true
    (isCmd 1 6 6 [(3, 1)] → ses s F.SESS_STATE = 0 → Completes (.sesOpen m) s fun u =>
      match s.openRefusal (at_ 2) (leNat (slice b 4 2)) (at_ 1) (at_ 0) with
      | some st => said st u ∧ freed u
      | none => done 0 u ∧ ses u F.SESS_STATE = 1 ∧ ses u F.SESS_KIND = at_ 2 ∧ ses u F.SESS_TENANT = leNat (slice b 4 2) ∧
          (u.mbox m).chal = natLe 32 (Config.freeValue s.free).toNat ∧ u.free = s.free + 1) ∧
    (isCmd 2 114 171 [] → ses s F.SESS_STATE = 1 → (if ses s F.SESS_KIND = 0 then 171 else 114) ≤ n → Completes (.sesProve m) s fun u =>
      (s.proved m b = false → said 2 u ∧ freed u) ∧
      (s.proved m b = true → (ses s F.SESS_KIND = 0 → s.operatorOpen = false) → done 0 u ∧ ses u F.SESS_STATE = 2)) ∧
    (isCmd 3 0 0 [] → ses s F.SESS_STATE = 2 → Completes (.sesClose m) s fun u => said 0 u ∧ freed u) ∧
    (isCmd 0x10 8 8 [] → ses s F.SESS_STATE = 2 → ses s F.SESS_KIND = 0 → Completes (.sesSetUtc m) s fun u => done 0 u ∧
      u.cal = leNat (slice b 0 8) * 1792000000000 ∧ u.calFlash = u.cal ∧ u.utcSet = true) ∧
    (isCmd 0x11 16 224 [] → opened 0 → n % 16 = 0 → n ≤ 224 → (∀ p ∈ stagePairs b n, (stageReg p.1).isSome = true) →
      (s.commit = none → (stagePairs b n).any s.retiredEn = false → Completes (.sesStage m) s fun u => done 0 u ∧ u.opStaged = true ∧
        u.applied = s.applied ∧ ∀ p r i, stagePairs b n = [p] → stageReg p.1 = some (r, i) → r ≠ .DOM_CFG →
          u.reg r i = writeFields (stgFields r) (s.reg r i) p.2) ∧
      (s.commit ≠ none → Completes (.sesStage m) s fun u => done 5 u ∧ u.fld .COMMIT_STAT [] F.COMMIT_STAT_CFG_REJ = 1)) ∧
    (∀ v at_ gun, v = BitVec.ofNat 64 (leNat (slice b 8 4)) → at_ = leNat (slice b 0 8) →
      gun = (if F.COMMIT_CTL_AT_GUN.get v = 1 then some (F.COMMIT_CTL_CH.get v) else none) → isCmd 0x12 12 12 [] → opened 0 →
      v = keepFields Reg.COMMIT_CTL.info.flds v → F.COMMIT_CTL_GO.get v = 1 → F.COMMIT_CTL_ABORT.get v = 0 → s.commit = none →
      (gun ≠ none ∨ s.ns + 100000 ≤ at_) →
      (s.commitCheck gun = none → Completes (.sesCommit m) s fun u => u.cmdOcc m = s.cmdOcc m - 1 ∧ u.reg .COMMIT_AT [] = BitVec.ofNat 64 at_ ∧
        u.commit = some ⟨gun, some (m.val, slice e 4 4)⟩ ∧ u.fld .COMMIT_STAT [] F.COMMIT_STAT_STATE = 1) ∧
      (s.commitCheck gun ≠ none → Completes (.sesCommit m) s fun u => done 8 u ∧ u.commit = none ∧
        u.fld .COMMIT_STAT [] F.COMMIT_STAT_STATE = 3)) ∧
    (∀ d k, d = at_ 0 → k = ses s F.SESS_KIND → isCmd 0x13 2 2 [] → opened k → may d → sget none s.quarAt d = none →
      (at_ 1 = 0 → s.polderState d = 1 → Completes (.sesPolder m) s fun u => done 0 u ∧ u.polderState d = 2) ∧
      ((at_ 1 = 1 ∨ at_ 1 = 2) → s.polderState d = 2 → Completes (.sesPolder m) s fun u => done 0 u ∧
        sget none u.quarAt d = some ((s.dom d).fc + 64)) ∧
      (at_ 1 = 0 → s.polderState d ≠ 1 → Completes (.sesPolder m) s fun u => done 5 u ∧ u.polderState d = s.polderState d ∧
        u.fld .POLDER_STAT [d] F.POLDER_STAT_CFG_REJ = 1)) ∧
    (∀ d, d = at_ 0 → isCmd 0x14 164 164 [] → opened 1 → may d → s.polderState d ≠ 2 → s.fld .RCPT_CFG [d] F.RCPT_CFG_TILE < 1152 →
      s.rcptRingOk (s.fld .RCPT_CFG [d] F.RCPT_CFG_TILE) (s.fld .RCPT_CFG [d] F.RCPT_CFG_RING) = true →
      Completes (.sesProgram m) s fun u =>
        (s.programOk m d b = true → done 0 u ∧ u.fld .RCPT_CFG [d] F.RCPT_CFG_EN = 1 ∧
          ∀ i < 4, u.reg .RCPT_PROG [d, i] = BitVec.ofNat 64 (leNat (slice b (2 + 8 * i) 8))) ∧
        (s.programOk m d b = false → done 5 u ∧ u.fld .RCPT_STAT [d] F.RCPT_STAT_CFG_REJ = 1)) ∧
    (∀ d, d = at_ 0 → isCmd 0x15 8 88 [(3, 1)] → opened 1 → may d → at_ 1 = 3 → at_ 2 < 4 →
      (s.epState d (at_ 2) = 1 ∨ s.epState d (at_ 2) = 2) → Completes (.sesEpoch m) s fun u => done 0 u ∧ u.epState d (at_ 2) = 0) ∧
    (isCmd 0x16 8 8 [(3, 1)] → opened 1 → at_ 0 < 64 → at_ 1 ≤ 1 → at_ 2 ≤ 15 →
      (s.fld .HEAT_TBL [at_ 0] F.HEAT_TBL_EN = 0 → Completes (.sesRetier m) s fun u => done 5 u ∧ u.sketches = s.sketches) ∧
      (s.fld .HEAT_TBL [at_ 0] F.HEAT_TBL_EN = 1 → s.sesPolderOk m (s.fld .HEAT_TBL [at_ 0] F.HEAT_TBL_POLDER) = true →
        Completes (.sesRetier m) s fun u => done 0 u ∧ u.sketch (at_ 0) = Sketch.init ∧ u.fld .HEAT_TBL [at_ 0] F.HEAT_TBL_EN = 1 ∧
          u.fld .HEAT_TBL [at_ 0] F.HEAT_TBL_RETIER = at_ 1 ∧ u.fld .HEAT_TBL [at_ 0] F.HEAT_TBL_DECAY = at_ 2)) ∧
    (isCmd 0x17 33 33 [] → ses s F.SESS_STATE = 2 → at_ 0 ≤ 7 → Completes (.sesAttest m) s fun u => done 0 u ∧
      RegsBut [Reg.loc .MB_STAT [m]] s u ∧ u.tiles = s.tiles) ∧
    (byteAt e 0 = 3 → sesShape e 0 0 [] = false → Completes (.sesClose m) s fun u => done 4 u ∧ u.reg .SESS [m] = s.reg .SESS [m]) ∧
    (isCmd 0x10 8 8 [] → ses s F.SESS_STATE = 2 → ses s F.SESS_KIND = 1 → Completes (.sesSetUtc m) s fun u => done 3 u ∧
      u.cal = s.cal ∧ u.reg .SESS [m] = s.reg .SESS [m])

/-- A key-management object is refused, captured and counted unless it has its form, its signature holds and the state of the chip permits it;
otherwise it acts: certificates and reports are returned, a tenant is registered, a key loaded or erased, a token held, the life cycle or
the security version moved on. -/
def Obligations.KeyObjectsAreCheckedAndAct : Prop :=
  ∀ (s : State) (obj : Bytes), s.hostUp = true →
    let form := fun (code n : Nat) (rsvd : List (Nat × Nat)) => obj.length = n ∧ byteAt obj 0 = BitVec.ofNat 8 code ∧ byteAt obj 1 = 1 ∧
      allZero (slice obj 2 2) = true ∧ ∀ r ∈ rsvd, allZero (slice obj r.1 r.2) = true
    let said := fun (st : Nat) (body : Bytes) (u : State) => u.out = s.out ++ [.doe (byteAt obj 0).toNat st body] ∧ SameMem s u ∧
      u.tiles = s.tiles
    let refused := fun (st : Nat) (u : State) => said st [] u ∧ u = { s with regs := u.regs, raised := u.raised, out := u.out } ∧
      RegsBut [Reg.loc .KM_STAT []] s u ∧ u.fld .KM_STAT [] F.KM_STAT_REJ = 1 ∧ (s.fld .KM_STAT [] F.KM_STAT_REJ = 0 →
        u.fld .KM_STAT [] F.KM_STAT_OBJ = (byteAt obj 0).toNat ∧ u.fld .KM_STAT [] F.KM_STAT_STATUS = st)
    let num := fun i n => leNat (slice obj i n)
    let here := fun i => slice obj i 8 = devId
    (form 1 4 [] → Completes (.getCerts obj) s fun u => said 0 s.boot.certs.flatten u ∧ u.regs = s.regs) ∧
    (¬form 1 4 [] → Completes (.getCerts obj) s (refused 4)) ∧
    (form 2 40 [(5, 3)] → (byteAt obj 4).toNat ≤ 7 → Completes (.doeAttest obj) s fun u =>
      if s.lc = 2 ∨ s.lc = 3 then said 0 (s.report (byteAt obj 4).toNat true (slice obj 8 32)) u ∧ u.regs = s.regs else refused 5 u) ∧
    (form 0x10 309 [(6, 2), (20, 4)] → num 4 2 ≠ 0 → here 8 → s.lc = 2 → s.tenants = [] → allZero (slice obj 24 57) = false →
      Completes (.regTenant obj) s fun u =>
        if s.ownerSigned (slice obj 138 57) (slice obj 0 195) (slice obj 195 114) = true then said 0 [] u ∧ u.regs = s.regs ∧
          u.tenants = [⟨num 4 2, num 16 4, slice obj 24 57, slice obj 81 57⟩] else refused 2 u) ∧
    (∀ r k t, r = obj.drop 4 → k = (byteAt r 16).toNat → t = leNat (slice r 2 2) → form 0x11 276 [(21, 7), (37, 7), (262, 14)] →
      byteAt r 0 = 0x20 → byteAt r 1 = 1 → slice r 8 8 = devId → s.lc = 2 → s.wt < leNat (slice r 24 9) →
      s.fld .KEY_STAT [k] F.KEY_STAT_LOADED = 0 → Completes (.loadKey obj) s fun u =>
        (s.tenantSigned t (slice r 0 144) (slice r 144 114) = false → refused 2 u) ∧
        (s.tenantSigned t (slice r 0 144) (slice r 144 114) = true → (s.unwrap r = none → refused 5 u) ∧
          ∀ key, s.unwrap r = some key → said 0 [] u ∧ sget [] u.keys k = key ∧ u.fld .KEY_STAT [k] F.KEY_STAT_LOADED = 1 ∧
            u.fld .KEY_STAT [k] F.KEY_STAT_TENANT = t ∧ u.fld .KEY_STAT [k] F.KEY_STAT_KEYID = leNat (slice r 4 4) ∧
            RegsBut [Reg.loc .KEY_STAT [k], Reg.loc .KM_STAT []] s u)) ∧
    (∀ k, k = (byteAt obj 4).toNat → form 0x12 195 [(5, 3), (17, 7)] → byteAt obj 16 = 1 → Completes (.eraseKey obj) s fun u =>
      let signed := s.ownerSigned (slice obj 24 57) (slice obj 0 81) (slice obj 81 114)
      (signed = false → refused 2 u) ∧ (signed = true → (¬here 8 ∨ s.fld .KEY_STAT [k] F.KEY_STAT_INUSE ≠ 0) → refused 5 u) ∧
        (signed = true → here 8 → s.fld .KEY_STAT [k] F.KEY_STAT_INUSE = 0 → said 0 [] u ∧ u.reg .KEY_STAT [k] = 0 ∧
          sget [] u.keys k = [] ∧ RegsBut [Reg.loc .KEY_STAT [k]] s u)) ∧
    (∀ b d, b = obj.drop 4 → d = (byteAt b 2).toNat → form 0x13 180 [(10, 2), (38, 6), (166, 14)] → byteAt b 0 = 0x40 → byteAt b 1 = 1 →
      d ≤ 7 → (byteAt b 3).toNat ≤ 3 → slice b 8 8 = devId → sget 0 s.serials d ≤ leNat (slice b 40 8) →
      Completes (.debugToken obj) s fun u =>
        if s.tenantSigned (leNat (slice b 4 2)) (slice b 0 48) (slice b 48 114) = true then said 0 [] u ∧ u.regs = s.regs ∧
          sget none u.tokens d = some b ∧ sget 0 u.serials d = leNat (slice b 40 8) + 1 else refused 2 u) ∧
    (∀ t key dig, t = (byteAt obj 4).toNat → key = slice obj 48 57 → dig = slice obj 16 32 → form 0x20 219 [(5, 3)] →
      Completes (.lcRequest obj) s fun u =>
        let ok := s.lcSigned t key (slice obj 0 105) (slice obj 105 114) = true ∧ here 8 ∧ (∀ d < 8, s.polderState d = 0) ∧
          ¬(s.lc = 2 ∧ t = 2 ∧ 4 ≤ s.fuses.owners.length)
        (¬ok → refused 5 u) ∧ (ok → u.fuses = s.lcFuses t key dig ∧ u.keys = [] ∧ (∀ m < 16, u.fld .SESS [m] F.SESS_STATE = 0) ∧
          u.fld .FW_STAT [] F.FW_STAT_STAGE = 1 ∧ .doe (byteAt obj 0).toNat 0 [] ∈ u.out)) ∧
    (∀ v, v = (byteAt obj 4).toNat → form 0x21 187 [(6, 2)] → (byteAt obj 5).toNat ≤ 1 → here 8 → v ≤ 64 →
      v ≤ s.fld .LC_STAT [] F.LC_STAT_ISVN → s.fuses.svn < v → byteAt obj 5 = 1 → Completes (.advanceSvn obj) s fun u =>
        if s.ownerSigned (slice obj 16 57) (slice obj 0 73) (slice obj 73 114) = true then said 0 [] u ∧ u.fuses.svn = v ∧
          u.fld .LC_STAT [] F.LC_STAT_SVNCNT = v ∧ RegsBut [Reg.loc .LC_STAT []] s u else refused 2 u)

/-- Bring-up begins at stage ROM; each stage does its work while it is current and the next one follows. ROM starts the first accepted image
of the boot plan or enters RECOVERY; the stages leave rails, clocks, wiped regions, marks, keys, the host port and the links as Table 17-3
says. In service images are put on trial, lists cleared, and an orderly power-down persists the records and stops the clocks. -/
def Obligations.BringUpGoesStageByStage : Prop :=
  (∀ (s : State), s.aonOk = false → Completes .pwrOkAonRise s fun u => u = { s with regs := u.regs, aonOk := true, pohAt := s.ns } ∧
    u.stageNow = 1 ∧ RegsBut [Reg.loc .FW_STAT []] s u) ∧
  (∀ (s : State) (x : BistResult) (retest : List (Nat × Nat)), s.aonOk = true → s.thermTrip = false →
    let pads := fun (r : Nat) (u : State) => ∀ t ∈ tilesOf r, ∀ a < 0x400000, u.byte (padAddr t a) = 0
    (s.stageNow = 1 → Completes .stageRom s fun u => SameMem s u ∧ u.tiles = s.tiles ∧
      match s.bootPlan.2.1.find? fun b => s.imageOk (s.imageIn b) with
      | none => u.stageNow = 15
      | some b => u.stageNow = 2 ∧ u.boot.imageB = b ∧ u.boot.mt = imageMt (s.imageIn b) ∧ u.fld .FW_STAT [] F.FW_STAT_IMAGE = b.toNat ∧
          u.fld .LC_STAT [] F.LC_STAT_UDSL = 1 ∧ (u.flash.prefB, u.flash.trial, u.flash.tries) = s.bootPlan.1) ∧
    (s.stageNow = 2 → Completes .stageSupply s fun u => u.stageNow = 3 ∧ OnlyRegs s u ∧ u.fld .AVS_SET [0] F.AVS_SET_MV = 800 ∧
      u.fld .AVS_SET [1] F.AVS_SET_MV = s.coreSet 0 % 1024 ∧ u.fld .AVS_SET [2] F.AVS_SET_MV = s.coreSet 1 % 1024 ∧
      u.fld .PWR_STAT [] F.PWR_STAT_GOOD = 127) ∧
    (s.stageNow = 3 → Completes .stageClock s fun u => u.stageNow = 4 ∧ OnlyRegs s u ∧
      ∀ r < 24, s.present r = true → u.fld .REG_CLK [r] F.REG_CLK_LOCK = 1) ∧
    (s.stageNow = 4 → Completes .stageWipe s fun u => u.stageNow = 5 ∧ ∀ r < 24, s.present r = true → u.regState r = 3 ∧ pads r u) ∧
    (s.stageNow = 5 → Completes (.stageBist x) s fun u => u.stageNow = 6 ∧
      u.wt = (s.toNs (s.ns + 30000000 * ((s.presentRegions.length + (s.cleared.filter fun r => !s.present r).length + 5) / 6))).wt ∧
      (∀ t ∈ x.tiles, t.val ∈ u.repairMarks) ∧ (∀ l ∈ x.layers, 4 * l.1.val + l.2.val ∈ u.layerMarks) ∧
      ∀ p ∈ x.plls, p.val ∈ u.regionMarks) ∧
    (s.stageNow = 6 → Completes (.stageRepair retest) s fun u => u.stageNow = 7 ∧ SameMem s u ∧
      ∀ r < 24, r ∈ s.regionMarks → u.present r = false ∧ u.regState r = 0 ∧ r ∈ u.flash.absent ∧ r ∉ u.regionMarks) ∧
    (s.stageNow = 7 → Completes .stageKeys s fun u => u.stageNow = 8 ∧ u.keeper = [] ∧ u.boot.certs = s.certChain ∧
      u.cseq = s.cseq + 1 ∧ u.tiles = s.tiles) ∧
    (s.stageNow = 8 → Completes .stageHost s fun u => u.stageNow = 9 ∧ SameMem s u ∧
      u.bifNow = u.fld .HOST_CFG [] F.HOST_CFG_BIF ∧
      ∀ r < 24, s.present r = true → s.polderOf r = none → s.regState r = 3 → u.regState r = 1) ∧
    (s.stageNow = 9 → Completes .stageReady s fun u => u.stageNow = 10 ∧ SameMem s u ∧
      (s.fld .FW_STAT [] F.FW_STAT_TRIAL = 1 → u.fld .FW_STAT [] F.FW_STAT_TRIAL = 0 ∧ u.flash.trial = false)) ∧
    (s.stageNow = 10 → s.commit = none → s.opStaged = false → s.portsToTrain ≠ [] → s.ns + 200000 < 2 ^ 64 →
      let m := (s.portsToTrain.foldl (fun s p => s.restore .PORT_CFG [p]) s).setReg .COMMIT_AT [] (BitVec.ofNat 64 (s.ns + 200000))
      Completes .stageLinks s fun u => u.stageNow = 10 ∧ u.applied = s.applied ∧ SameMem s u ∧
        (∀ p ∈ s.portsToTrain, u.fld .PORT_CFG [p] F.PORT_CFG_EN = 1) ∧ u.reg .COMMIT_AT [] = BitVec.ofNat 64 (s.ns + 200000) ∧
        (m.commitCheck none = none → u.commit = some ⟨none, none⟩ ∧ u.fld .COMMIT_STAT [] F.COMMIT_STAT_STATE = 1)) ∧
    (s.stageNow = 10 → s.portsToTrain = [] → Completes .stageLinks s fun u => u = s)) ∧
  ∀ (s : State) (slotB : Bool) (image : Bytes) (p : PortIx), image.length ≤ 0x1000000 →
    let put := fun (u : State) => u.bytes (imageAt slotB) image.length = image ∧ SameMemBut (imageAt slotB) image.length s u
    (s.stageNow = 15 → Completes (.imageWrite slotB image) s fun u => if s.imageOk image = true then put u ∧ u.regs = s.regs
      else SameMem s u ∧ u.fld .FW_STAT [] F.FW_STAT_FWREJ = 1) ∧
    (s.terern = true → slotB ≠ s.boot.imageB → Completes (.imageWrite slotB image) s fun u => put u ∧
      if s.imageOk (u.imageIn slotB) = true then (u.flash.prefB, u.flash.trial, u.flash.tries) = (slotB, true, 3) ∧ u.regs = s.regs
      else u.flash = s.flash ∧ u.fld .FW_STAT [] F.FW_STAT_FWREJ = 1) ∧
    (s.terern = true → Completes (.listClear p) s fun u => u = { s with retired := u.retired, cleared := u.cleared } ∧
      (∀ k, k ∈ u.retired ↔ k ∈ s.retired ∧ k ≠ p.val) ∧ ∀ r < 24, r ∈ s.flash.absent → r ∈ u.cleared) ∧
    (s.terern = true → Completes .powerDown s fun u => u.out = s.out ++ [.ready] ∧ u.clockStop = true ∧ u.calFlash = s.cal ∧
      u.flash.cseq = s.cseq ∧ SameMem s u ∧ u.regs = s.regs ∧ ∀ d, u.domOn d = false)

/-- A report joins its router's key or is placed in a case, queued, or dropped and counted; an expired key sends its summary; a closed case is
numbered. Wake, sleep and the 20 µs of a wake move a region's power state. A capping pass keeps every cap in 19 to 64, lowers that of a
hot domain, raises another by at most one, and stages the frequency once the voltage covers it; a short guardband grows by 5 mV up to 60. -/
def Obligations.FaultsAndPowerAreManaged : Prop :=
  (∀ (s : State) (rep : Report), s.isFrozen = false → s.fld .FRZ_CFG [] F.FRZ_CFG_FAULT = 0 →
    let live := fun k : RKey => k.key = repKey rep ∧ s.wt < k.since + 256000
    let placed := fun (u : State) => u.cases = (s.cases.filter fun c => !c.takes rep) ++ [joinCases rep (s.cases.filter fun c => c.takes rep)]
    (∀ k, s.routerKeys.find? (fun k => decide (live k)) = some k → Completes (.faultReport rep) s fun u => u.cases = s.cases ∧
      u.funnelQ = s.funnelQ ∧ u.regs = s.regs ∧ SameMem s u ∧
      ∃ k' ∈ u.routerKeys, k'.key = repKey rep ∧ k'.count = k.count + rep.weight ∧ k'.last = rep.wt) ∧
    ((∀ k ∈ s.routerKeys, ¬live k) →
      (s.funnelQ = [] → s.funnelFits rep = true → Completes (.faultReport rep) s fun u => placed u ∧
        RegsBut [Reg.loc .SEAM_STAT []] s u ∧ SameMem s u) ∧
      (s.funnelQ.length < 4096 → (s.funnelQ ≠ [] ∨ s.funnelFits rep = false) → Completes (.faultReport rep) s fun u =>
        u.funnelQ = s.funnelQ ++ [rep] ∧ u.cases = s.cases ∧ RegsBut [Reg.loc .SEAM_STAT []] s u ∧ SameMem s u) ∧
      (4096 ≤ s.funnelQ.length → Completes (.faultReport rep) s fun u => u.funnelQ = s.funnelQ ∧ u.cases = s.cases ∧
        u.lostReport = true ∧
        u.fld .FUNNEL_STAT [] F.FUNNEL_STAT_DROP_CNT = min (s.fld .FUNNEL_STAT [] F.FUNNEL_STAT_DROP_CNT + 1) 65535))) ∧
  (∀ (s : State) (k : RouterKey) (x : RKey), s.isFrozen = false → s.routerKeys.find? (fun x => decide (x.key = k)) = some x →
    x.since + 256000 ≤ s.wt →
    (x.count = 0 → Completes (.summary k) s fun u => u = { s with routerKeys := s.routerKeys.erase x }) ∧
    (∀ r, r = (⟨k.router, k.cls, x.sec, true, k.cul0, k.cul1, x.count, x.last, List.replicate 13 0⟩ : Report) → x.count ≠ 0 →
      s.fld .FRZ_CFG [] F.FRZ_CFG_FAULT = 0 → s.funnelQ = [] → s.cases = [] → Completes (.summary k) s fun u =>
        u.routerKeys = s.routerKeys.erase x ∧ u.cases = [⟨r.wt, r.wt + 25600000, [r], false⟩])) ∧
  (∀ (s : State) (c : Case), s.cases = [c] → c.closes ≤ s.wt →
    let v := { s with cases := [] }.enterPast c
    let w := v.reload (v.rerunChans c (v.caseChans c c.culprit)) (v.lostLines c)
    let numbered := fun (m u : State) => u.cases = m.cases ∧ u.caseNo = m.caseNo + 1 ∧
      u.fld .FUNNEL_STAT [] F.FUNNEL_STAT_CASE_CNT = (m.fld .FUNNEL_STAT [] F.FUNNEL_STAT_CASE_CNT + 1) % 2 ^ 32
    ((v.permanent c c.culprit ≠ 0 ∨ v.lostLines c = []) → s.ceCases = [] → s.funnelQ = [] → Completes .caseClose s (numbered v)) ∧
    (v.permanent c c.culprit = 0 → v.lostLines c ≠ [] → w.ceCases = [] → w.funnelQ = [] → Completes .caseClose s (numbered w))) ∧
  (∀ (s : State) (r : RegionIx),
    let rej := fun (u : State) => OnlyRegs s u ∧ u.fld .PWR_STAT [] F.PWR_STAT_CFG_REJ = 1 ∧ RegsBut [Reg.loc .PWR_STAT []] s u
    (s.regState r = 1 → s.wakeQ = [] → s.waking.length < 4 → Completes (.regionWake .mgmt r) s fun u => u.regState r = 2 ∧
      u.wakeQ = [] ∧ u.waking = s.waking ++ [(r.val, s.wt + 20000 * 256)] ∧ RegsBut [Reg.loc .REG_PWR [r]] s u ∧ SameMem s u) ∧
    (s.regState r = 1 → r.val ∉ s.wakeQ → 4 ≤ s.waking.length → Completes (.regionWake .mgmt r) s fun u =>
      u = { s with wakeQ := s.wakeQ ++ [r.val] }) ∧
    (s.regState r ≠ 1 → Completes (.regionWake .mgmt r) s rej) ∧
    (s.regState r = 3 → s.polderOf r = none → Completes (.regionSleep .mgmt r) s fun u => u.regState r = 1 ∧ OnlyRegs s u ∧
      u.fld .TWR_CFG [r] F.TWR_CFG_RET = 1 ∧ u.fld .REG_CLK [r] F.REG_CLK_AWAKE = 0 ∧ u.fld .REG_CLK [r] F.REG_CLK_LOCK = 0 ∧
      RegsBut [Reg.loc .REG_PWR [r], Reg.loc .TWR_CFG [r], Reg.loc .REG_CLK [r]] s u) ∧
    ((s.regState r ≠ 3 ∨ s.polderOf r ≠ none) → Completes (.regionSleep .mgmt r) s rej) ∧
    (∀ w, s.waking.find? (fun w => decide (w.1 = r.val)) = some w → w.2 ≤ s.wt → s.present r = true → s.layerMarks = [] →
      s.repairMarks = [] → s.regionMarks = [] → s.wakeQ = [] → (s.testMarks = [] → Completes (.regionAwake r true) s fun v => ∃ u : State, v = u.unpark ∧ u.parked = s.parked ∧
        u.regState r = 3 ∧ u.fld .REG_CLK [r] F.REG_CLK_AWAKE = 1 ∧ u.fld .REG_CLK [r] F.REG_CLK_LOCK = 1 ∧
        u.fld .TWR_CFG [r] F.TWR_CFG_RET = 0 ∧ u.waking = s.waking.filter (fun x => decide (x.1 ≠ r.val)) ∧
        (∀ d < 8, bit (u.fld .POLDER_STAT [d] F.POLDER_STAT_WFAIL) r.val = false) ∧
        ∀ t ∈ tilesOf r, ∀ a < 0x400000, u.byte (padAddr t a) = 0) ∧
      (∀ t, s.testMarks = [t] → regionOf t = r → Completes (.regionAwake r false) s fun v => ∃ u : State, v = u.unpark ∧ u.parked = s.parked ∧
        u.regState r = 1 ∧ u.repairMarks = [t] ∧ u.testMarks = []))) ∧
  (∀ (s : State) (x : PowerInputs), s.terern = true →
    (s.isFrozen = true → Completes (.cappingPass x) s fun u => u = s) ∧
    (s.isFrozen = false → Completes (.cappingPass x) s fun u => ∀ d < 8,
      let hot := s.fld .THERM_CFG [] F.THERM_CFG_TLIM < s.hottest x d
      (s.polderState d = 0 → u.cap d = s.cap d) ∧
      (s.polderState d ≠ 0 → 19 ≤ s.cap d → s.cap d ≤ 64 → 19 ≤ u.cap d ∧ u.cap d ≤ 64 ∧ u.cap d ≤ s.cap d + 1 ∧
        (hot → u.cap d ≤ max (s.cap d - 1) 19) ∧ (¬hot → x.pk ≤ s.fld .PWR_CFG [] F.PWR_CFG_PKG_LIM → s.cap d ≤ u.cap d) ∧
        (s.commit = none → ∀ f w, f = s.fld .DOM_CFG [d] F.DOM_CFG_FSET → w = min (s.fld .DOM_REQ [d] F.DOM_REQ_M) (u.cap d) →
          u.fld .DOM_CFG [d] F.DOM_CFG_FSET = if f < w ∧ s.volts d < w then f else w)))) ∧
  ∀ (s : State) (half : HalfIx) (worst : RegionIx), s.terern = true →
    let g := s.guardband half
    Completes (.guardbandCheck half false worst) s (fun u => u = s) ∧
    (g < 60 → Completes (.guardbandCheck half true worst) s fun u => u.guardband half = min 60 (g + 5) ∧
      u.guardband (1 - half.val) = s.guardband (1 - half.val) ∧ sget 0 u.flash.life 1 = sget 0 u.life 1 ∧ SameMem s u) ∧
    (60 ≤ g → s.commit = none → Completes (.guardbandCheck half true worst) s fun u =>
      u.fld .HALF_CFG [half] F.HALF_CFG_FMAX = max 19 (s.fld .HALF_CFG [half] F.HALF_CFG_FMAX - 1) ∧ u.caseNo = s.caseNo + 1)

/-- A trigger in RUN records its source, number and wall time and stops every formed domain 16 fc ahead; one during a freeze is counted. When
every domain stands the device is FROZEN; a thaw resumes it unless FRZ_N holds it; a read-out answers data only where it is permitted. -/
def Obligations.FreezesStopReadOutAndThaw : Prop :=
  (∀ (s : State),
    let launched := fun (src : Nat) (u : State) => u.frzState = 1 ∧ u.fld .FRZ_STAT [] F.FRZ_STAT_SRC = src ∧
      u.reg .FRZ_WT [] = BitVec.ofNat 64 s.ns ∧ u.fld .FRZ_CNT [] F.FRZ_CNT_CNT = (s.fld .FRZ_CNT [] F.FRZ_CNT_CNT + 1) % 2 ^ 16 ∧
      SameMem s u ∧ u.tiles = s.tiles ∧ ∀ d < 8, (u.dom d).fc = (s.dom d).fc ∧ ((s.dom d).formed = true →
        (u.dom d).stop = some ((s.dom d).fc + 16) ∧ u.fld .FRZ_FC [d] F.FRZ_FC_F = ((s.dom d).fc + 16) % 2 ^ 48)
    let counted := fun (u : State) => OnlyRegs s u ∧ RegsBut [Reg.loc .FRZ_STAT []] s u ∧ u.frzState = s.frzState ∧
      u.fld .FRZ_STAT [] F.FRZ_STAT_IGN_CNT = min (s.fld .FRZ_STAT [] F.FRZ_STAT_IGN_CNT + 1) 255
    let acts := fun (c : Instr) (src : Nat) => (s.frzState = 0 → Completes c s (launched src)) ∧ (s.frzState ≠ 0 → Completes c s counted)
    (s.fld .FRZ_CFG [] F.FRZ_CFG_PIN = 1 → acts .frzNFall 1) ∧
    (s.fld .FRZ_CFG [] F.FRZ_CFG_PIN = 0 → Completes .frzNFall s fun u => u = s) ∧
    (s.fld .FRZ_CFG [] F.FRZ_CFG_WT = 1 → nsWt (s.reg .FRZ_TWT []).toNat ≤ s.wt → acts .freezeWtTrigger 4) ∧
    (∀ src, src ≠ .ctl ∨ s.frzState ≠ 3 → acts (.freeze src) 6)) ∧
  (∀ (s : State) (r : RegionIx) (d f : Nat), s.frzState = 1 → s.polderOf r = some d → (s.dom d).stop = some f → f ≤ (s.dom d).fc →
    (s.allStopped = true → s.fld .FRZ_CFG [] F.FRZ_CFG_FULL = 0 → Completes (.freezeStop r) s fun u => u.frzState = 2 ∧
      u.frozenAt = s.wt ∧ u.wt = s.wt ∧ SameMem s u ∧ u.doms = s.doms) ∧
    (s.allStopped = false → Completes (.freezeStop r) s fun u => u = s)) ∧
  (∀ (s : State) (pinLow : Bool),
    let low := pinLow = true ∧ s.fld .FRZ_CFG [] F.FRZ_CFG_PIN = 1
    let thawed := fun (u : State) => u.frzState = 0 ∧ SameMem s u ∧ ∀ d < 8, u.dom d = { s.dom d with stop := none }
    let refused := fun (u : State) => OnlyRegs s u ∧ RegsBut [Reg.loc .FRZ_STAT []] s u ∧ u.frzState = s.frzState ∧
      u.fld .FRZ_STAT [] F.FRZ_STAT_THREJ = 1
    (∀ src, s.frzState = 2 → ¬low → s.uioHeld = [] → Completes (.thaw src pinLow) s thawed) ∧
    (∀ src, (s.frzState ≠ 2 ∨ low) → (src ≠ .ctl ∨ s.frzState ≠ 3) → Completes (.thaw src pinLow) s refused) ∧
    (s.fld .FRZ_CTL [] F.FRZ_CTL_RWTEN = 1 → nsWt (s.reg .FRZ_RWT []).toNat ≤ s.wt →
      (s.frzState = 2 → ¬low → s.uioHeld = [] → Completes (.thawWt pinLow) s thawed) ∧
      ((s.frzState ≠ 2 ∨ low) → Completes (.thawWt pinLow) s refused)) ∧
    (s.fld .FRZ_CTL [] F.FRZ_CTL_RWTEN = 0 → Completes (.thawWt pinLow) s fun u => u = s)) ∧
  ∀ (s : State) (jtag : Bool) (x : ReadTarget), s.isFrozen = true → (jtag = true ∨ s.frzState ≠ 3) →
    Completes (.freezeReadout jtag x) s fun u => SameMem s u ∧ u.tiles = s.tiles ∧
      u.out = s.out ++ [.readout (if (s.readPermit jtag x).1 then s.readData x else List.replicate (s.readData x).length 0)] ∧
      ∀ d < 8, u.fld .DBG_STAT [d] F.DBG_STAT_READS =
        (s.fld .DBG_STAT [d] F.DBG_STAT_READS + if (s.readPermit jtag x).2 = some d then readCount x else 0) % 2 ^ F.DBG_STAT_READS.width

/-- A reset frees every polder, halts every thread, ends every session, and wipes every memory but the flash, with the waiting commands kept.
A warm reset keeps the RWS fields and the always-on flags, a cold reset resets the RWS fields too; loss of VAON puts each MSEQ 2^20 ahead.
Rail, clock and thermal events set their flags; a thermal trip stops every clock. -/
def Obligations.ResetsWipeAndSupplyEventsFlag : Prop :=
  ∀ (s : State),
    let wiped := fun (u : State) => (∀ a, ¬(flashAddr 0 ≤ a ∧ a < flashAddr 0x4000000) → u.byte a = 0) ∧
      (∀ a, flashAddr 0 ≤ a → a < flashAddr 0x4000000 → u.byte a = s.byte a) ∧ (∀ t, u.tile t = Tile.init) ∧
      (∀ d < 8, u.polderState d = 0 ∧ (u.dom d).formed = false) ∧ (∀ m < 16, u.fld .SESS [m] F.SESS_STATE = 0) ∧
      u.fld .FW_STAT [] F.FW_STAT_STAGE = 1 ∧ u.pending = s.pending ∧ u.fuses = s.fuses
    let kept := fun (u : State) => ∀ p < 16, u.reg .TB_ASYM [p] = s.reg .TB_ASYM [p] ∧
      u.fld .PORT_CNT [p] F.PORT_CNT_RPL_TOT = s.fld .PORT_CNT [p] F.PORT_CNT_RPL_TOT ∧
      u.fld .PORT_CNT [p] F.PORT_CNT_RETRAINS = s.fld .PORT_CNT [p] F.PORT_CNT_RETRAINS ∧
      u.fld .HOST_CFG [] F.HOST_CFG_BIF = s.fld .HOST_CFG [] F.HOST_CFG_BIF
    let warm := fun (u : State) => wiped u ∧ kept u ∧ u.wt = s.wt ∧ u.xtalOff = s.xtalOff
    let cold := fun (u : State) => wiped u ∧ u.fld .HOST_CFG [] F.HOST_CFG_BIF = 0 ∧ u.aonOk = false ∧ u.clockStop = false ∧
      ∀ p < 16, u.reg .TB_ASYM [p] = Reg.reset .TB_ASYM [p] ∧ u.fld .PORT_CNT [p] F.PORT_CNT_RETRAINS = 0
    let mseq := fun (u : State) => ∀ d < 8, u.reg .MTR [d, 15] = BitVec.ofNat 64 (sget 0 s.flash.mseq d + 2 ^ 20)
    Completes .warmReset s warm ∧
    Completes (.coldReset false) s (fun u => cold u ∧ ∀ d < 8, u.reg .MTR [d, 15] = s.reg .MTR [d, 15]) ∧
    Completes (.coldReset true) s (fun u => cold u ∧ mseq u) ∧
    (s.frzState ≠ 3 → Completes .watchdogExpiry s warm) ∧
    (s.frzState = 3 → Completes .watchdogExpiry s fun u => u = s) ∧
    Completes .refclkLockLoss s (fun u => warm u ∧ u.fld .PWR_STAT [] F.PWR_STAT_CLKRST = 1) ∧
    (∀ r : RailIx, (r.val = 0 → Completes (.railLoss r) s fun u => cold u ∧ mseq u) ∧
      (r.val ≠ 0 → Completes (.railLoss r) s fun u => warm u ∧ u.fld .PWR_STAT [] F.PWR_STAT_UVRST = 1 ∧
        u.fld .PWR_STAT [] F.PWR_STAT_RAIL = r.val ∧ bit (u.fld .PWR_STAT [] F.PWR_STAT_GOOD) r.val = false) ∧
      Completes (.railOrderViolation r) s fun u => OnlyRegs s u ∧ RegsBut [Reg.loc .PWR_STAT []] s u ∧
        u.fld .PWR_STAT [] F.PWR_STAT_ORDER = 1 ∧ u.fld .PWR_STAT [] F.PWR_STAT_RAIL = r.val ∧ u.alert = true) ∧
    Completes .xtalStop s (fun u => u = { s with xtalOff := true } ∧ u.alert = true) ∧
    Completes .thermalTrip s (fun u => u = { s with regs := u.regs, raised := u.raised, thermTrip := true, clockStop := true } ∧
      RegsBut [Reg.loc .PWR_STAT []] s u ∧ u.fld .PWR_STAT [] F.PWR_STAT_TTRIP = 1 ∧ u.alert = true ∧ ∀ d, u.domOn d = false)
end

