-- ==== Sys2Proof/Laws/Fields.lean ====
section
/-! SUPPORT. Laws of register fields: a field reads as written, the fields beside it are left alone. -/
namespace Sys2Proof.Machine

/-- A register with a field replaced, as a number: what lies above the field, the field, what lies below it. -/
theorem Fld.set_toNat (f : Fld) (w : W64) (v : Nat) (h : f.lo ≤ f.hi) (h64 : f.hi < 64) :
    (f.set w v).toNat = 2 ^ (f.lo + f.width) * (w.toNat / 2 ^ (f.lo + f.width)) + 2 ^ f.lo * (v % 2 ^ f.width) + w.toNat % 2 ^ f.lo := by
  have hw := w.isLt
  unfold Fld.set Fld.get
  generalize hW : w.toNat = W at *
  set a := 2 ^ f.lo with ha
  set b := 2 ^ f.width with hb
  have hab : 2 ^ (f.lo + f.width) = a * b := pow_add ..
  rw [hab]
  have ha0 : 0 < a := by positivity
  have hb0 : 0 < b := by positivity
  have h1 : W = a * (W / a) + W % a := (Nat.div_add_mod W a).symm
  have h2 : W / a = b * (W / a / b) + W / a % b := (Nat.div_add_mod (W / a) b).symm
  have h3 : W / a / b = W / (a * b) := Nat.div_div_eq_div_mul W a b
  have hv : v % b < b := Nat.mod_lt _ hb0
  have hr : W % a < a := Nat.mod_lt _ ha0
  have hk : f.lo + f.width + (63 - f.hi) = 64 := by unfold Fld.width; omega
  have h64' : (2 : Nat) ^ 64 = a * b * 2 ^ (63 - f.hi) := by rw [← hab, ← pow_add, hk]
  have hq : W / (a * b) < 2 ^ (63 - f.hi) := by
    apply Nat.div_lt_of_lt_mul; rw [← h64']; exact hw
  have e1 : W = a * b * (W / (a * b)) + a * (W / a % b) + W % a := by
    conv_lhs => rw [h1, h2, h3]
    ring
  have e2 : a * b * (W / (a * b)) + a * (v % b) + W % a < 2 ^ 64 := by
    have : a * b * (W / (a * b)) + a * b ≤ 2 ^ 64 := by
      rw [h64', ← Nat.mul_succ]; exact Nat.mul_le_mul_left _ hq
    have : a * (v % b) + a ≤ a * b := by rw [← Nat.mul_succ]; exact Nat.mul_le_mul_left _ hv
    omega
  rw [BitVec.toNat_ofNat, Nat.mod_eq_of_lt]
  · omega
  · omega

theorem Fld.get_set (f : Fld) (w : W64) (v : Nat) (h : f.lo ≤ f.hi) (h64 : f.hi < 64) : f.get (f.set w v) = v % 2 ^ f.width := by
  have hr : w.toNat % 2 ^ f.lo < 2 ^ f.lo := Nat.mod_lt _ (by positivity)
  unfold Fld.get
  rw [Fld.set_toNat f w v h h64, pow_add]
  rw [show 2 ^ f.lo * 2 ^ f.width * (w.toNat / (2 ^ f.lo * 2 ^ f.width)) + 2 ^ f.lo * (v % 2 ^ f.width) + w.toNat % 2 ^ f.lo
      = 2 ^ f.lo * (2 ^ f.width * (w.toNat / (2 ^ f.lo * 2 ^ f.width)) + v % 2 ^ f.width) + w.toNat % 2 ^ f.lo by ring]
  rw [Nat.mul_add_div (by positivity), Nat.div_eq_of_lt hr, Nat.add_zero, Nat.mul_add_mod, Nat.mod_mod]

/-- A field that lies wholly above or below the one written is left alone. -/
theorem Fld.get_set_other (f g : Fld) (w : W64) (v : Nat) (hf : f.lo ≤ f.hi) (hg : g.lo ≤ g.hi) (h64 : g.hi < 64)
    (h : f.hi < g.lo ∨ g.hi < f.lo) : f.get (g.set w v) = f.get w := by
  have bit : ∀ x : Nat, ∀ i < f.width, (f.lo + i < g.lo ∨ g.lo + g.width ≤ f.lo + i) := by
    intro _ i hi; unfold Fld.width at *; omega
  unfold Fld.get
  apply Nat.eq_of_testBit_eq
  intro i
  rw [Nat.testBit_mod_two_pow, Nat.testBit_mod_two_pow]
  by_cases hi : i < f.width
  · simp only [hi, decide_true, Bool.true_and, Nat.testBit_div_two_pow]
    rw [Fld.set_toNat g w v hg h64]
    have hr : w.toNat % 2 ^ g.lo < 2 ^ g.lo := Nat.mod_lt _ (by positivity)
    have hv : v % 2 ^ g.width < 2 ^ g.width := Nat.mod_lt _ (by positivity)
    rcases bit 0 i hi with hb | hb
    · rw [pow_add, show 2 ^ g.lo * 2 ^ g.width * (w.toNat / (2 ^ g.lo * 2 ^ g.width)) + 2 ^ g.lo * (v % 2 ^ g.width) + w.toNat % 2 ^ g.lo
          = 2 ^ g.lo * (2 ^ g.width * (w.toNat / (2 ^ g.lo * 2 ^ g.width)) + v % 2 ^ g.width) + w.toNat % 2 ^ g.lo by ring,
        Nat.testBit_two_pow_mul_add _ hr, if_pos (by omega), Nat.testBit_mod_two_pow]
      simp; intro hc; omega
    · have : 2 ^ g.lo * (v % 2 ^ g.width) + w.toNat % 2 ^ g.lo < 2 ^ (g.lo + g.width) := by
        rw [pow_add]
        have : 2 ^ g.lo * (v % 2 ^ g.width) + 2 ^ g.lo ≤ 2 ^ g.lo * 2 ^ g.width := by
          rw [← Nat.mul_succ]; exact Nat.mul_le_mul_left _ hv
        omega
      rw [Nat.add_assoc, Nat.testBit_two_pow_mul_add _ this, if_neg (by omega), Nat.testBit_div_two_pow]
      congr 1; omega
  · simp [hi]

/-- A field's value fits its width. -/
theorem Fld.get_lt (f : Fld) (w : W64) : f.get w < 2 ^ f.width := Nat.mod_lt _ (by positivity)

end Sys2Proof.Machine
end

