-- ==== Sys2Proof/Laws/Map.lean ====
section
/-! SUPPORT. Laws of sparse maps: reading after writing, and that every update keeps the canonical form. -/
namespace Sys2Proof.Machine

variable {α : Type}

@[simp] theorem sget_nil (d : α) (k : Nat) : sget d [] k = d := rfl

theorem sget_cons (d : α) (j : Nat) (v : α) (m : SMap α) (k : Nat) :
    sget d ((j, v) :: m) k = if j = k then v else sget d m k := rfl

theorem sget_sdel (d : α) (m : SMap α) (k l : Nat) : sget d (sdel m k) l = if l = k then d else sget d m l := by
  induction m with
  | nil => simp [sdel]
  | cons e m ih =>
    obtain ⟨j, v⟩ := e
    unfold sdel at ih ⊢
    by_cases hj : j = k
    · subst hj
      by_cases hl : l = j
      · subst hl; simpa using ih
      · simp [sget_cons, hl, Ne.symm hl] at ih ⊢
        simpa [hl] using ih
    · by_cases hl : l = k
      · subst hl; simpa [sget_cons, hj] using ih
      · simp [sget_cons, hj, hl] at ih ⊢
        rw [ih]

theorem sget_sins (d : α) (m : SMap α) (k l : Nat) (v : α) (h : ∀ e ∈ m, e.1 ≠ k) :
    sget d (sins m k v) l = if l = k then v else sget d m l := by
  induction m with
  | nil => simp [sins, sget_cons, eq_comm]
  | cons e m ih =>
    obtain ⟨j, w⟩ := e
    have hj : j ≠ k := h _ List.mem_cons_self
    have ih := ih fun e he => h e (List.mem_cons_of_mem _ he)
    unfold sins
    split
    · simp only [sget_cons, ih]
      by_cases hl : l = k <;> simp_all
    · by_cases hl : l = k
      · subst hl; simp [sget_cons]
      · simp [sget_cons, hl, Ne.symm hl]

theorem sget_sput [DecidableEq α] (d : α) (m : SMap α) (k l : Nat) (v : α) :
    sget d (sput d m k v) l = if l = k then v else sget d m l := by
  unfold sput
  split
  · next h => rw [sget_sdel]; split <;> simp_all
  · rw [sget_sins _ _ _ _ _ (by simp [sdel]), sget_sdel]; split <;> simp_all

@[simp] theorem sget_sput_same [DecidableEq α] (d : α) (m : SMap α) (k : Nat) (v : α) : sget d (sput d m k v) k = v := by
  simp [sget_sput]

theorem sget_sput_other [DecidableEq α] (d e : α) (m : SMap α) (k l : Nat) (v : α) (h : l ≠ k) :
    sget e (sput d m k v) l = sget e m l := by
  unfold sput
  split
  · simp [sget_sdel, h]
  · rw [sget_sins _ _ _ _ _ (by simp [sdel]), sget_sdel]; simp [h]

/-- The canonical form as order and absence of the default. -/
theorem swf_iff [DecidableEq α] (d : α) (m : SMap α) :
    swf d m = true ↔ m.Pairwise (fun a b => a.1 < b.1) ∧ ∀ e ∈ m, e.2 ≠ d := by
  induction m with
  | nil => simp [swf]
  | cons e m ih =>
    obtain ⟨j, v⟩ := e
    cases m with
    | nil => simp [swf]
    | cons f m =>
      obtain ⟨k, w⟩ := f
      simp only [swf, Bool.and_eq_true, decide_eq_true_eq, bne_iff_ne, ih]
      constructor
      · rintro ⟨⟨hjk, hv⟩, hp, hd⟩
        refine ⟨List.Pairwise.cons ?_ hp, ?_⟩
        · intro x hx
          rcases List.mem_cons.mp hx with rfl | hx
          · exact hjk
          · exact lt_trans hjk (List.rel_of_pairwise_cons hp hx)
        · intro x hx
          rcases List.mem_cons.mp hx with rfl | hx
          · exact hv
          · exact hd x hx
      · rintro ⟨hp, hd⟩
        exact ⟨⟨List.rel_of_pairwise_cons hp List.mem_cons_self, hd _ List.mem_cons_self⟩, hp.of_cons,
          fun x hx => hd x (List.mem_cons_of_mem _ hx)⟩

theorem swf_filter [DecidableEq α] (d : α) (m : SMap α) (p : Nat × α → Bool) (h : swf d m = true) :
    swf d (m.filter p) = true := by
  rw [swf_iff] at h ⊢
  exact ⟨h.1.filter p, fun e he => h.2 e ((List.mem_filter.mp he).1)⟩

theorem mem_sins (m : SMap α) (k : Nat) (v : α) (e : Nat × α) : e ∈ sins m k v ↔ e = (k, v) ∨ e ∈ m := by
  induction m with
  | nil => simp [sins]
  | cons f m ih =>
    obtain ⟨j, w⟩ := f
    unfold sins
    split
    · simp [ih]; tauto
    · simp

theorem swf_sins [DecidableEq α] (d : α) (m : SMap α) (k : Nat) (v : α) (hv : v ≠ d) (hk : ∀ e ∈ m, e.1 ≠ k)
    (h : swf d m = true) : swf d (sins m k v) = true := by
  rw [swf_iff] at h ⊢
  refine ⟨?_, fun e he => ?_⟩
  · obtain ⟨h, -⟩ := h
    induction m with
    | nil => simp [sins]
    | cons f m ih =>
      obtain ⟨j, w⟩ := f
      unfold sins
      have hj : j ≠ k := hk _ List.mem_cons_self
      split
      · refine List.Pairwise.cons ?_ (ih (fun e he => hk e (List.mem_cons_of_mem _ he)) h.of_cons)
        intro e he
        rcases (mem_sins m k v e).mp he with rfl | he
        · assumption
        · exact List.rel_of_pairwise_cons h he
      · refine List.Pairwise.cons ?_ h
        intro e he
        rcases List.mem_cons.mp he with rfl | he
        · simp; omega
        · have := List.rel_of_pairwise_cons h he
          simp at this ⊢; omega
  · rcases (mem_sins m k v e).mp he with rfl | he
    · exact hv
    · exact h.2 e he

theorem swf_sput [DecidableEq α] (d : α) (m : SMap α) (k : Nat) (v : α) (h : swf d m = true) :
    swf d (sput d m k v) = true := by
  unfold sput
  have hd := swf_filter d m (fun e => decide (e.1 ≠ k)) h
  split
  · exact hd
  · exact swf_sins d _ k v (by assumption) (by simp [sdel]) hd

end Sys2Proof.Machine
end

