-- ==== Sys2Proof/Laws/State.lean ====
section
/-! SUPPORT. What every update of the state leaves alone, and what it leaves at the place it writes. -/
namespace Sys2Proof.Machine

/-! ### The other fields -/

@[simp] theorem State.setByte_frame (s : State) (a : Nat) (b : Byte) :
    (s.setByte a b).regs = s.regs ∧ (s.setByte a b).applied = s.applied ∧ (s.setByte a b).crcDelta = s.crcDelta ∧
    (s.setByte a b).symErr = s.symErr ∧ (s.setByte a b).tiles = s.tiles ∧ (s.setByte a b).towers = s.towers ∧
    (s.setByte a b).doms = s.doms ∧ (s.setByte a b).chans = s.chans ∧ (s.setByte a b).groups = s.groups ∧ (s.setByte a b).hops = s.hops ∧
    (s.setByte a b).fires = s.fires ∧ (s.setByte a b).abortMsgs = s.abortMsgs ∧ (s.setByte a b).abortReqs = s.abortReqs ∧
    (s.setByte a b).untimed = s.untimed ∧ (s.setByte a b).gadds = s.gadds ∧ (s.setByte a b).readies = s.readies ∧
    (s.setByte a b).reports = s.reports ∧ (s.setByte a b).ports = s.ports ∧ (s.setByte a b).paths = s.paths ∧
    (s.setByte a b).credits = s.credits ∧ (s.setByte a b).timeReq = s.timeReq ∧ (s.setByte a b).timeNo = s.timeNo ∧
    (s.setByte a b).retired = s.retired ∧ (s.setByte a b).hubs = s.hubs ∧ (s.setByte a b).verified = s.verified ∧
    (s.setByte a b).admSwitch = s.admSwitch ∧ (s.setByte a b).epDones = s.epDones ∧ (s.setByte a b).heats = s.heats ∧
    (s.setByte a b).sketches = s.sketches ∧ (s.setByte a b).keys = s.keys ∧ (s.setByte a b).tenants = s.tenants ∧
    (s.setByte a b).fuses = s.fuses ∧ (s.setByte a b).tokens = s.tokens ∧ (s.setByte a b).serials = s.serials ∧
    (s.setByte a b).gaugeTrig = s.gaugeTrig ∧ (s.setByte a b).uio = s.uio ∧ (s.setByte a b).slow = s.slow ∧
    (s.setByte a b).uioNo = s.uioNo ∧ (s.setByte a b).uioHeld = s.uioHeld ∧ (s.setByte a b).rcptJobs = s.rcptJobs ∧
    (s.setByte a b).chains = s.chains ∧ (s.setByte a b).quarAt = s.quarAt ∧ (s.setByte a b).wipes = s.wipes ∧
    (s.setByte a b).commit = s.commit ∧ (s.setByte a b).meters = s.meters ∧ (s.setByte a b).windowEnd = s.windowEnd ∧
    (s.setByte a b).windows = s.windows ∧ (s.setByte a b).energySub = s.energySub ∧ (s.setByte a b).retained = s.retained ∧
    (s.setByte a b).cseq = s.cseq ∧ (s.setByte a b).gaps = s.gaps ∧ (s.setByte a b).keeper = s.keeper ∧
    (s.setByte a b).resetAt = s.resetAt ∧ (s.setByte a b).wipedAt = s.wipedAt ∧ (s.setByte a b).retiers = s.retiers ∧
    (s.setByte a b).reloads = s.reloads ∧ (s.setByte a b).cases = s.cases ∧ (s.setByte a b).funnelQ = s.funnelQ ∧
    (s.setByte a b).caseNo = s.caseNo ∧ (s.setByte a b).lostReport = s.lostReport ∧ (s.setByte a b).routerKeys = s.routerKeys ∧
    (s.setByte a b).past = s.past ∧ (s.setByte a b).testMarks = s.testMarks ∧ (s.setByte a b).layerMarks = s.layerMarks ∧
    (s.setByte a b).regionMarks = s.regionMarks ∧ (s.setByte a b).cleared = s.cleared ∧ (s.setByte a b).capOk = s.capOk ∧
    (s.setByte a b).opStaged = s.opStaged ∧ (s.setByte a b).wakeQ = s.wakeQ ∧ (s.setByte a b).waking = s.waking ∧
    (s.setByte a b).life = s.life ∧ (s.setByte a b).flash = s.flash ∧ (s.setByte a b).boot = s.boot ∧
    (s.setByte a b).thermTrip = s.thermTrip ∧ (s.setByte a b).bifNow = s.bifNow ∧ (s.setByte a b).perst = s.perst ∧
    (s.setByte a b).frozenAt = s.frozenAt ∧ (s.setByte a b).aonOk = s.aonOk ∧ (s.setByte a b).pohAt = s.pohAt ∧
    (s.setByte a b).ceTimes = s.ceTimes ∧ (s.setByte a b).ceCases = s.ceCases ∧ (s.setByte a b).rewritten = s.rewritten ∧
    (s.setByte a b).repairMarks = s.repairMarks ∧ (s.setByte a b).ideUp = s.ideUp ∧ (s.setByte a b).mgmt = s.mgmt ∧
    (s.setByte a b).mboxes = s.mboxes ∧ (s.setByte a b).out = s.out ∧ (s.setByte a b).wt = s.wt ∧ (s.setByte a b).wtSub = s.wtSub ∧
    (s.setByte a b).rateAdj = s.rateAdj ∧ (s.setByte a b).offs = s.offs ∧ (s.setByte a b).tbSrc = s.tbSrc ∧ (s.setByte a b).ref = s.ref ∧
    (s.setByte a b).timekeepers = s.timekeepers ∧ (s.setByte a b).monAt = s.monAt ∧ (s.setByte a b).cal = s.cal ∧
    (s.setByte a b).utcSet = s.utcSet ∧ (s.setByte a b).calFlash = s.calFlash ∧ (s.setByte a b).stretch = s.stretch ∧
    (s.setByte a b).waves = s.waves ∧ (s.setByte a b).clockStop = s.clockStop ∧ (s.setByte a b).xtalOff = s.xtalOff ∧
    (s.setByte a b).parked = s.parked ∧ (s.setByte a b).raised = s.raised ∧ (s.setByte a b).free = s.free ∧
    (s.setByte a b).pending = s.pending :=
  ⟨rfl, rfl, rfl, rfl, rfl, rfl, rfl, rfl, rfl, rfl, rfl, rfl, rfl, rfl, rfl, rfl, rfl, rfl, rfl, rfl, rfl, rfl, rfl, rfl, rfl, rfl, rfl,
   rfl, rfl, rfl, rfl, rfl, rfl, rfl, rfl, rfl, rfl, rfl, rfl, rfl, rfl, rfl, rfl, rfl, rfl, rfl, rfl, rfl, rfl, rfl, rfl, rfl, rfl, rfl,
   rfl, rfl, rfl, rfl, rfl, rfl, rfl, rfl, rfl, rfl, rfl, rfl, rfl, rfl, rfl, rfl, rfl, rfl, rfl, rfl, rfl, rfl, rfl, rfl, rfl, rfl, rfl,
   rfl, rfl, rfl, rfl, rfl, rfl, rfl, rfl, rfl, rfl, rfl, rfl, rfl, rfl, rfl, rfl, rfl, rfl, rfl, rfl, rfl, rfl, rfl, rfl, rfl⟩

@[simp] theorem State.setReg_frame (s : State) (r : Reg) (i : List Nat) (v : W64) :
    (s.setReg r i v).applied = s.applied ∧ (s.setReg r i v).mem = s.mem ∧ (s.setReg r i v).crcDelta = s.crcDelta ∧
    (s.setReg r i v).symErr = s.symErr ∧ (s.setReg r i v).tiles = s.tiles ∧ (s.setReg r i v).towers = s.towers ∧
    (s.setReg r i v).doms = s.doms ∧ (s.setReg r i v).chans = s.chans ∧ (s.setReg r i v).groups = s.groups ∧
    (s.setReg r i v).hops = s.hops ∧ (s.setReg r i v).fires = s.fires ∧ (s.setReg r i v).abortMsgs = s.abortMsgs ∧
    (s.setReg r i v).abortReqs = s.abortReqs ∧ (s.setReg r i v).untimed = s.untimed ∧ (s.setReg r i v).gadds = s.gadds ∧
    (s.setReg r i v).readies = s.readies ∧ (s.setReg r i v).reports = s.reports ∧ (s.setReg r i v).ports = s.ports ∧
    (s.setReg r i v).paths = s.paths ∧ (s.setReg r i v).credits = s.credits ∧ (s.setReg r i v).timeReq = s.timeReq ∧
    (s.setReg r i v).timeNo = s.timeNo ∧ (s.setReg r i v).retired = s.retired ∧ (s.setReg r i v).hubs = s.hubs ∧
    (s.setReg r i v).verified = s.verified ∧ (s.setReg r i v).admSwitch = s.admSwitch ∧ (s.setReg r i v).epDones = s.epDones ∧
    (s.setReg r i v).heats = s.heats ∧ (s.setReg r i v).sketches = s.sketches ∧ (s.setReg r i v).keys = s.keys ∧
    (s.setReg r i v).tenants = s.tenants ∧ (s.setReg r i v).fuses = s.fuses ∧ (s.setReg r i v).tokens = s.tokens ∧
    (s.setReg r i v).serials = s.serials ∧ (s.setReg r i v).gaugeTrig = s.gaugeTrig ∧ (s.setReg r i v).uio = s.uio ∧
    (s.setReg r i v).slow = s.slow ∧ (s.setReg r i v).uioNo = s.uioNo ∧ (s.setReg r i v).uioHeld = s.uioHeld ∧
    (s.setReg r i v).rcptJobs = s.rcptJobs ∧ (s.setReg r i v).chains = s.chains ∧ (s.setReg r i v).quarAt = s.quarAt ∧
    (s.setReg r i v).wipes = s.wipes ∧ (s.setReg r i v).commit = s.commit ∧ (s.setReg r i v).meters = s.meters ∧
    (s.setReg r i v).windowEnd = s.windowEnd ∧ (s.setReg r i v).windows = s.windows ∧ (s.setReg r i v).energySub = s.energySub ∧
    (s.setReg r i v).retained = s.retained ∧ (s.setReg r i v).cseq = s.cseq ∧ (s.setReg r i v).gaps = s.gaps ∧
    (s.setReg r i v).keeper = s.keeper ∧ (s.setReg r i v).resetAt = s.resetAt ∧ (s.setReg r i v).wipedAt = s.wipedAt ∧
    (s.setReg r i v).retiers = s.retiers ∧ (s.setReg r i v).reloads = s.reloads ∧ (s.setReg r i v).cases = s.cases ∧
    (s.setReg r i v).funnelQ = s.funnelQ ∧ (s.setReg r i v).caseNo = s.caseNo ∧ (s.setReg r i v).lostReport = s.lostReport ∧
    (s.setReg r i v).routerKeys = s.routerKeys ∧ (s.setReg r i v).past = s.past ∧ (s.setReg r i v).testMarks = s.testMarks ∧
    (s.setReg r i v).layerMarks = s.layerMarks ∧ (s.setReg r i v).regionMarks = s.regionMarks ∧ (s.setReg r i v).cleared = s.cleared ∧
    (s.setReg r i v).capOk = s.capOk ∧ (s.setReg r i v).opStaged = s.opStaged ∧ (s.setReg r i v).wakeQ = s.wakeQ ∧
    (s.setReg r i v).waking = s.waking ∧ (s.setReg r i v).life = s.life ∧ (s.setReg r i v).flash = s.flash ∧
    (s.setReg r i v).boot = s.boot ∧ (s.setReg r i v).thermTrip = s.thermTrip ∧ (s.setReg r i v).bifNow = s.bifNow ∧
    (s.setReg r i v).perst = s.perst ∧ (s.setReg r i v).frozenAt = s.frozenAt ∧ (s.setReg r i v).aonOk = s.aonOk ∧
    (s.setReg r i v).pohAt = s.pohAt ∧ (s.setReg r i v).ceTimes = s.ceTimes ∧ (s.setReg r i v).ceCases = s.ceCases ∧
    (s.setReg r i v).rewritten = s.rewritten ∧ (s.setReg r i v).repairMarks = s.repairMarks ∧ (s.setReg r i v).ideUp = s.ideUp ∧
    (s.setReg r i v).mgmt = s.mgmt ∧ (s.setReg r i v).mboxes = s.mboxes ∧ (s.setReg r i v).out = s.out ∧ (s.setReg r i v).wt = s.wt ∧
    (s.setReg r i v).wtSub = s.wtSub ∧ (s.setReg r i v).rateAdj = s.rateAdj ∧ (s.setReg r i v).offs = s.offs ∧
    (s.setReg r i v).tbSrc = s.tbSrc ∧ (s.setReg r i v).ref = s.ref ∧ (s.setReg r i v).timekeepers = s.timekeepers ∧
    (s.setReg r i v).monAt = s.monAt ∧ (s.setReg r i v).cal = s.cal ∧ (s.setReg r i v).utcSet = s.utcSet ∧
    (s.setReg r i v).calFlash = s.calFlash ∧ (s.setReg r i v).stretch = s.stretch ∧ (s.setReg r i v).waves = s.waves ∧
    (s.setReg r i v).clockStop = s.clockStop ∧ (s.setReg r i v).xtalOff = s.xtalOff ∧ (s.setReg r i v).parked = s.parked ∧
    (s.setReg r i v).raised = s.raised ∧ (s.setReg r i v).free = s.free ∧ (s.setReg r i v).pending = s.pending :=
  ⟨rfl, rfl, rfl, rfl, rfl, rfl, rfl, rfl, rfl, rfl, rfl, rfl, rfl, rfl, rfl, rfl, rfl, rfl, rfl, rfl, rfl, rfl, rfl, rfl, rfl, rfl, rfl,
   rfl, rfl, rfl, rfl, rfl, rfl, rfl, rfl, rfl, rfl, rfl, rfl, rfl, rfl, rfl, rfl, rfl, rfl, rfl, rfl, rfl, rfl, rfl, rfl, rfl, rfl, rfl,
   rfl, rfl, rfl, rfl, rfl, rfl, rfl, rfl, rfl, rfl, rfl, rfl, rfl, rfl, rfl, rfl, rfl, rfl, rfl, rfl, rfl, rfl, rfl, rfl, rfl, rfl, rfl,
   rfl, rfl, rfl, rfl, rfl, rfl, rfl, rfl, rfl, rfl, rfl, rfl, rfl, rfl, rfl, rfl, rfl, rfl, rfl, rfl, rfl, rfl, rfl, rfl, rfl⟩

@[simp] theorem State.setFld_frame (s : State) (r : Reg) (i : List Nat) (f : Fld) (v : Nat) :
    (s.setFld r i f v).applied = s.applied ∧ (s.setFld r i f v).mem = s.mem ∧ (s.setFld r i f v).crcDelta = s.crcDelta ∧
    (s.setFld r i f v).symErr = s.symErr ∧ (s.setFld r i f v).tiles = s.tiles ∧ (s.setFld r i f v).towers = s.towers ∧
    (s.setFld r i f v).doms = s.doms ∧ (s.setFld r i f v).chans = s.chans ∧ (s.setFld r i f v).groups = s.groups ∧
    (s.setFld r i f v).hops = s.hops ∧ (s.setFld r i f v).fires = s.fires ∧ (s.setFld r i f v).abortMsgs = s.abortMsgs ∧
    (s.setFld r i f v).abortReqs = s.abortReqs ∧ (s.setFld r i f v).untimed = s.untimed ∧ (s.setFld r i f v).gadds = s.gadds ∧
    (s.setFld r i f v).readies = s.readies ∧ (s.setFld r i f v).reports = s.reports ∧ (s.setFld r i f v).ports = s.ports ∧
    (s.setFld r i f v).paths = s.paths ∧ (s.setFld r i f v).credits = s.credits ∧ (s.setFld r i f v).timeReq = s.timeReq ∧
    (s.setFld r i f v).timeNo = s.timeNo ∧ (s.setFld r i f v).retired = s.retired ∧ (s.setFld r i f v).hubs = s.hubs ∧
    (s.setFld r i f v).verified = s.verified ∧ (s.setFld r i f v).admSwitch = s.admSwitch ∧ (s.setFld r i f v).epDones = s.epDones ∧
    (s.setFld r i f v).heats = s.heats ∧ (s.setFld r i f v).sketches = s.sketches ∧ (s.setFld r i f v).keys = s.keys ∧
    (s.setFld r i f v).tenants = s.tenants ∧ (s.setFld r i f v).fuses = s.fuses ∧ (s.setFld r i f v).tokens = s.tokens ∧
    (s.setFld r i f v).serials = s.serials ∧ (s.setFld r i f v).gaugeTrig = s.gaugeTrig ∧ (s.setFld r i f v).uio = s.uio ∧
    (s.setFld r i f v).slow = s.slow ∧ (s.setFld r i f v).uioNo = s.uioNo ∧ (s.setFld r i f v).uioHeld = s.uioHeld ∧
    (s.setFld r i f v).rcptJobs = s.rcptJobs ∧ (s.setFld r i f v).chains = s.chains ∧ (s.setFld r i f v).quarAt = s.quarAt ∧
    (s.setFld r i f v).wipes = s.wipes ∧ (s.setFld r i f v).commit = s.commit ∧ (s.setFld r i f v).meters = s.meters ∧
    (s.setFld r i f v).windowEnd = s.windowEnd ∧ (s.setFld r i f v).windows = s.windows ∧ (s.setFld r i f v).energySub = s.energySub ∧
    (s.setFld r i f v).retained = s.retained ∧ (s.setFld r i f v).cseq = s.cseq ∧ (s.setFld r i f v).gaps = s.gaps ∧
    (s.setFld r i f v).keeper = s.keeper ∧ (s.setFld r i f v).resetAt = s.resetAt ∧ (s.setFld r i f v).wipedAt = s.wipedAt ∧
    (s.setFld r i f v).retiers = s.retiers ∧ (s.setFld r i f v).reloads = s.reloads ∧ (s.setFld r i f v).cases = s.cases ∧
    (s.setFld r i f v).funnelQ = s.funnelQ ∧ (s.setFld r i f v).caseNo = s.caseNo ∧ (s.setFld r i f v).lostReport = s.lostReport ∧
    (s.setFld r i f v).routerKeys = s.routerKeys ∧ (s.setFld r i f v).past = s.past ∧ (s.setFld r i f v).testMarks = s.testMarks ∧
    (s.setFld r i f v).layerMarks = s.layerMarks ∧ (s.setFld r i f v).regionMarks = s.regionMarks ∧
    (s.setFld r i f v).cleared = s.cleared ∧ (s.setFld r i f v).capOk = s.capOk ∧ (s.setFld r i f v).opStaged = s.opStaged ∧
    (s.setFld r i f v).wakeQ = s.wakeQ ∧ (s.setFld r i f v).waking = s.waking ∧ (s.setFld r i f v).life = s.life ∧
    (s.setFld r i f v).flash = s.flash ∧ (s.setFld r i f v).boot = s.boot ∧ (s.setFld r i f v).thermTrip = s.thermTrip ∧
    (s.setFld r i f v).bifNow = s.bifNow ∧ (s.setFld r i f v).perst = s.perst ∧ (s.setFld r i f v).frozenAt = s.frozenAt ∧
    (s.setFld r i f v).aonOk = s.aonOk ∧ (s.setFld r i f v).pohAt = s.pohAt ∧ (s.setFld r i f v).ceTimes = s.ceTimes ∧
    (s.setFld r i f v).ceCases = s.ceCases ∧ (s.setFld r i f v).rewritten = s.rewritten ∧
    (s.setFld r i f v).repairMarks = s.repairMarks ∧ (s.setFld r i f v).ideUp = s.ideUp ∧ (s.setFld r i f v).mgmt = s.mgmt ∧
    (s.setFld r i f v).mboxes = s.mboxes ∧ (s.setFld r i f v).out = s.out ∧ (s.setFld r i f v).wt = s.wt ∧
    (s.setFld r i f v).wtSub = s.wtSub ∧ (s.setFld r i f v).rateAdj = s.rateAdj ∧ (s.setFld r i f v).offs = s.offs ∧
    (s.setFld r i f v).tbSrc = s.tbSrc ∧ (s.setFld r i f v).ref = s.ref ∧ (s.setFld r i f v).timekeepers = s.timekeepers ∧
    (s.setFld r i f v).monAt = s.monAt ∧ (s.setFld r i f v).cal = s.cal ∧ (s.setFld r i f v).utcSet = s.utcSet ∧
    (s.setFld r i f v).calFlash = s.calFlash ∧ (s.setFld r i f v).stretch = s.stretch ∧ (s.setFld r i f v).waves = s.waves ∧
    (s.setFld r i f v).clockStop = s.clockStop ∧ (s.setFld r i f v).xtalOff = s.xtalOff ∧ (s.setFld r i f v).parked = s.parked ∧
    (s.setFld r i f v).free = s.free ∧ (s.setFld r i f v).pending = s.pending :=
  ⟨rfl, rfl, rfl, rfl, rfl, rfl, rfl, rfl, rfl, rfl, rfl, rfl, rfl, rfl, rfl, rfl, rfl, rfl, rfl, rfl, rfl, rfl, rfl, rfl, rfl, rfl, rfl,
   rfl, rfl, rfl, rfl, rfl, rfl, rfl, rfl, rfl, rfl, rfl, rfl, rfl, rfl, rfl, rfl, rfl, rfl, rfl, rfl, rfl, rfl, rfl, rfl, rfl, rfl, rfl,
   rfl, rfl, rfl, rfl, rfl, rfl, rfl, rfl, rfl, rfl, rfl, rfl, rfl, rfl, rfl, rfl, rfl, rfl, rfl, rfl, rfl, rfl, rfl, rfl, rfl, rfl, rfl,
   rfl, rfl, rfl, rfl, rfl, rfl, rfl, rfl, rfl, rfl, rfl, rfl, rfl, rfl, rfl, rfl, rfl, rfl, rfl, rfl, rfl, rfl, rfl, rfl⟩

@[simp] theorem State.setTile_frame (s : State) (t : Nat) (x : Tile) :
    (s.setTile t x).regs = s.regs ∧ (s.setTile t x).applied = s.applied ∧ (s.setTile t x).mem = s.mem ∧
    (s.setTile t x).crcDelta = s.crcDelta ∧ (s.setTile t x).symErr = s.symErr ∧ (s.setTile t x).towers = s.towers ∧
    (s.setTile t x).doms = s.doms ∧ (s.setTile t x).chans = s.chans ∧ (s.setTile t x).groups = s.groups ∧ (s.setTile t x).hops = s.hops ∧
    (s.setTile t x).fires = s.fires ∧ (s.setTile t x).abortMsgs = s.abortMsgs ∧ (s.setTile t x).abortReqs = s.abortReqs ∧
    (s.setTile t x).untimed = s.untimed ∧ (s.setTile t x).gadds = s.gadds ∧ (s.setTile t x).readies = s.readies ∧
    (s.setTile t x).reports = s.reports ∧ (s.setTile t x).ports = s.ports ∧ (s.setTile t x).paths = s.paths ∧
    (s.setTile t x).credits = s.credits ∧ (s.setTile t x).timeReq = s.timeReq ∧ (s.setTile t x).timeNo = s.timeNo ∧
    (s.setTile t x).retired = s.retired ∧ (s.setTile t x).hubs = s.hubs ∧ (s.setTile t x).verified = s.verified ∧
    (s.setTile t x).admSwitch = s.admSwitch ∧ (s.setTile t x).epDones = s.epDones ∧ (s.setTile t x).heats = s.heats ∧
    (s.setTile t x).sketches = s.sketches ∧ (s.setTile t x).keys = s.keys ∧ (s.setTile t x).tenants = s.tenants ∧
    (s.setTile t x).fuses = s.fuses ∧ (s.setTile t x).tokens = s.tokens ∧ (s.setTile t x).serials = s.serials ∧
    (s.setTile t x).gaugeTrig = s.gaugeTrig ∧ (s.setTile t x).uio = s.uio ∧ (s.setTile t x).slow = s.slow ∧
    (s.setTile t x).uioNo = s.uioNo ∧ (s.setTile t x).uioHeld = s.uioHeld ∧ (s.setTile t x).rcptJobs = s.rcptJobs ∧
    (s.setTile t x).chains = s.chains ∧ (s.setTile t x).quarAt = s.quarAt ∧ (s.setTile t x).wipes = s.wipes ∧
    (s.setTile t x).commit = s.commit ∧ (s.setTile t x).meters = s.meters ∧ (s.setTile t x).windowEnd = s.windowEnd ∧
    (s.setTile t x).windows = s.windows ∧ (s.setTile t x).energySub = s.energySub ∧ (s.setTile t x).retained = s.retained ∧
    (s.setTile t x).cseq = s.cseq ∧ (s.setTile t x).gaps = s.gaps ∧ (s.setTile t x).keeper = s.keeper ∧
    (s.setTile t x).resetAt = s.resetAt ∧ (s.setTile t x).wipedAt = s.wipedAt ∧ (s.setTile t x).retiers = s.retiers ∧
    (s.setTile t x).reloads = s.reloads ∧ (s.setTile t x).cases = s.cases ∧ (s.setTile t x).funnelQ = s.funnelQ ∧
    (s.setTile t x).caseNo = s.caseNo ∧ (s.setTile t x).lostReport = s.lostReport ∧ (s.setTile t x).routerKeys = s.routerKeys ∧
    (s.setTile t x).past = s.past ∧ (s.setTile t x).testMarks = s.testMarks ∧ (s.setTile t x).layerMarks = s.layerMarks ∧
    (s.setTile t x).regionMarks = s.regionMarks ∧ (s.setTile t x).cleared = s.cleared ∧ (s.setTile t x).capOk = s.capOk ∧
    (s.setTile t x).opStaged = s.opStaged ∧ (s.setTile t x).wakeQ = s.wakeQ ∧ (s.setTile t x).waking = s.waking ∧
    (s.setTile t x).life = s.life ∧ (s.setTile t x).flash = s.flash ∧ (s.setTile t x).boot = s.boot ∧
    (s.setTile t x).thermTrip = s.thermTrip ∧ (s.setTile t x).bifNow = s.bifNow ∧ (s.setTile t x).perst = s.perst ∧
    (s.setTile t x).frozenAt = s.frozenAt ∧ (s.setTile t x).aonOk = s.aonOk ∧ (s.setTile t x).pohAt = s.pohAt ∧
    (s.setTile t x).ceTimes = s.ceTimes ∧ (s.setTile t x).ceCases = s.ceCases ∧ (s.setTile t x).rewritten = s.rewritten ∧
    (s.setTile t x).repairMarks = s.repairMarks ∧ (s.setTile t x).ideUp = s.ideUp ∧ (s.setTile t x).mgmt = s.mgmt ∧
    (s.setTile t x).mboxes = s.mboxes ∧ (s.setTile t x).out = s.out ∧ (s.setTile t x).wt = s.wt ∧ (s.setTile t x).wtSub = s.wtSub ∧
    (s.setTile t x).rateAdj = s.rateAdj ∧ (s.setTile t x).offs = s.offs ∧ (s.setTile t x).tbSrc = s.tbSrc ∧ (s.setTile t x).ref = s.ref ∧
    (s.setTile t x).timekeepers = s.timekeepers ∧ (s.setTile t x).monAt = s.monAt ∧ (s.setTile t x).cal = s.cal ∧
    (s.setTile t x).utcSet = s.utcSet ∧ (s.setTile t x).calFlash = s.calFlash ∧ (s.setTile t x).stretch = s.stretch ∧
    (s.setTile t x).waves = s.waves ∧ (s.setTile t x).clockStop = s.clockStop ∧ (s.setTile t x).xtalOff = s.xtalOff ∧
    (s.setTile t x).parked = s.parked ∧ (s.setTile t x).raised = s.raised ∧ (s.setTile t x).free = s.free ∧
    (s.setTile t x).pending = s.pending :=
  ⟨rfl, rfl, rfl, rfl, rfl, rfl, rfl, rfl, rfl, rfl, rfl, rfl, rfl, rfl, rfl, rfl, rfl, rfl, rfl, rfl, rfl, rfl, rfl, rfl, rfl, rfl, rfl,
   rfl, rfl, rfl, rfl, rfl, rfl, rfl, rfl, rfl, rfl, rfl, rfl, rfl, rfl, rfl, rfl, rfl, rfl, rfl, rfl, rfl, rfl, rfl, rfl, rfl, rfl, rfl,
   rfl, rfl, rfl, rfl, rfl, rfl, rfl, rfl, rfl, rfl, rfl, rfl, rfl, rfl, rfl, rfl, rfl, rfl, rfl, rfl, rfl, rfl, rfl, rfl, rfl, rfl, rfl,
   rfl, rfl, rfl, rfl, rfl, rfl, rfl, rfl, rfl, rfl, rfl, rfl, rfl, rfl, rfl, rfl, rfl, rfl, rfl, rfl, rfl, rfl, rfl, rfl, rfl⟩

@[simp] theorem State.modTile_frame (s : State) (t : Nat) (f : Tile → Tile) :
    (s.modTile t f).regs = s.regs ∧ (s.modTile t f).applied = s.applied ∧ (s.modTile t f).mem = s.mem ∧
    (s.modTile t f).crcDelta = s.crcDelta ∧ (s.modTile t f).symErr = s.symErr ∧ (s.modTile t f).towers = s.towers ∧
    (s.modTile t f).doms = s.doms ∧ (s.modTile t f).chans = s.chans ∧ (s.modTile t f).groups = s.groups ∧ (s.modTile t f).hops = s.hops ∧
    (s.modTile t f).fires = s.fires ∧ (s.modTile t f).abortMsgs = s.abortMsgs ∧ (s.modTile t f).abortReqs = s.abortReqs ∧
    (s.modTile t f).untimed = s.untimed ∧ (s.modTile t f).gadds = s.gadds ∧ (s.modTile t f).readies = s.readies ∧
    (s.modTile t f).reports = s.reports ∧ (s.modTile t f).ports = s.ports ∧ (s.modTile t f).paths = s.paths ∧
    (s.modTile t f).credits = s.credits ∧ (s.modTile t f).timeReq = s.timeReq ∧ (s.modTile t f).timeNo = s.timeNo ∧
    (s.modTile t f).retired = s.retired ∧ (s.modTile t f).hubs = s.hubs ∧ (s.modTile t f).verified = s.verified ∧
    (s.modTile t f).admSwitch = s.admSwitch ∧ (s.modTile t f).epDones = s.epDones ∧ (s.modTile t f).heats = s.heats ∧
    (s.modTile t f).sketches = s.sketches ∧ (s.modTile t f).keys = s.keys ∧ (s.modTile t f).tenants = s.tenants ∧
    (s.modTile t f).fuses = s.fuses ∧ (s.modTile t f).tokens = s.tokens ∧ (s.modTile t f).serials = s.serials ∧
    (s.modTile t f).gaugeTrig = s.gaugeTrig ∧ (s.modTile t f).uio = s.uio ∧ (s.modTile t f).slow = s.slow ∧
    (s.modTile t f).uioNo = s.uioNo ∧ (s.modTile t f).uioHeld = s.uioHeld ∧ (s.modTile t f).rcptJobs = s.rcptJobs ∧
    (s.modTile t f).chains = s.chains ∧ (s.modTile t f).quarAt = s.quarAt ∧ (s.modTile t f).wipes = s.wipes ∧
    (s.modTile t f).commit = s.commit ∧ (s.modTile t f).meters = s.meters ∧ (s.modTile t f).windowEnd = s.windowEnd ∧
    (s.modTile t f).windows = s.windows ∧ (s.modTile t f).energySub = s.energySub ∧ (s.modTile t f).retained = s.retained ∧
    (s.modTile t f).cseq = s.cseq ∧ (s.modTile t f).gaps = s.gaps ∧ (s.modTile t f).keeper = s.keeper ∧
    (s.modTile t f).resetAt = s.resetAt ∧ (s.modTile t f).wipedAt = s.wipedAt ∧ (s.modTile t f).retiers = s.retiers ∧
    (s.modTile t f).reloads = s.reloads ∧ (s.modTile t f).cases = s.cases ∧ (s.modTile t f).funnelQ = s.funnelQ ∧
    (s.modTile t f).caseNo = s.caseNo ∧ (s.modTile t f).lostReport = s.lostReport ∧ (s.modTile t f).routerKeys = s.routerKeys ∧
    (s.modTile t f).past = s.past ∧ (s.modTile t f).testMarks = s.testMarks ∧ (s.modTile t f).layerMarks = s.layerMarks ∧
    (s.modTile t f).regionMarks = s.regionMarks ∧ (s.modTile t f).cleared = s.cleared ∧ (s.modTile t f).capOk = s.capOk ∧
    (s.modTile t f).opStaged = s.opStaged ∧ (s.modTile t f).wakeQ = s.wakeQ ∧ (s.modTile t f).waking = s.waking ∧
    (s.modTile t f).life = s.life ∧ (s.modTile t f).flash = s.flash ∧ (s.modTile t f).boot = s.boot ∧
    (s.modTile t f).thermTrip = s.thermTrip ∧ (s.modTile t f).bifNow = s.bifNow ∧ (s.modTile t f).perst = s.perst ∧
    (s.modTile t f).frozenAt = s.frozenAt ∧ (s.modTile t f).aonOk = s.aonOk ∧ (s.modTile t f).pohAt = s.pohAt ∧
    (s.modTile t f).ceTimes = s.ceTimes ∧ (s.modTile t f).ceCases = s.ceCases ∧ (s.modTile t f).rewritten = s.rewritten ∧
    (s.modTile t f).repairMarks = s.repairMarks ∧ (s.modTile t f).ideUp = s.ideUp ∧ (s.modTile t f).mgmt = s.mgmt ∧
    (s.modTile t f).mboxes = s.mboxes ∧ (s.modTile t f).out = s.out ∧ (s.modTile t f).wt = s.wt ∧ (s.modTile t f).wtSub = s.wtSub ∧
    (s.modTile t f).rateAdj = s.rateAdj ∧ (s.modTile t f).offs = s.offs ∧ (s.modTile t f).tbSrc = s.tbSrc ∧ (s.modTile t f).ref = s.ref ∧
    (s.modTile t f).timekeepers = s.timekeepers ∧ (s.modTile t f).monAt = s.monAt ∧ (s.modTile t f).cal = s.cal ∧
    (s.modTile t f).utcSet = s.utcSet ∧ (s.modTile t f).calFlash = s.calFlash ∧ (s.modTile t f).stretch = s.stretch ∧
    (s.modTile t f).waves = s.waves ∧ (s.modTile t f).clockStop = s.clockStop ∧ (s.modTile t f).xtalOff = s.xtalOff ∧
    (s.modTile t f).parked = s.parked ∧ (s.modTile t f).raised = s.raised ∧ (s.modTile t f).free = s.free ∧
    (s.modTile t f).pending = s.pending :=
  ⟨rfl, rfl, rfl, rfl, rfl, rfl, rfl, rfl, rfl, rfl, rfl, rfl, rfl, rfl, rfl, rfl, rfl, rfl, rfl, rfl, rfl, rfl, rfl, rfl, rfl, rfl, rfl,
   rfl, rfl, rfl, rfl, rfl, rfl, rfl, rfl, rfl, rfl, rfl, rfl, rfl, rfl, rfl, rfl, rfl, rfl, rfl, rfl, rfl, rfl, rfl, rfl, rfl, rfl, rfl,
   rfl, rfl, rfl, rfl, rfl, rfl, rfl, rfl, rfl, rfl, rfl, rfl, rfl, rfl, rfl, rfl, rfl, rfl, rfl, rfl, rfl, rfl, rfl, rfl, rfl, rfl, rfl,
   rfl, rfl, rfl, rfl, rfl, rfl, rfl, rfl, rfl, rfl, rfl, rfl, rfl, rfl, rfl, rfl, rfl, rfl, rfl, rfl, rfl, rfl, rfl, rfl, rfl⟩

@[simp] theorem State.setDom_frame (s : State) (d : Nat) (x : Domain) :
    (s.setDom d x).regs = s.regs ∧ (s.setDom d x).applied = s.applied ∧ (s.setDom d x).mem = s.mem ∧
    (s.setDom d x).crcDelta = s.crcDelta ∧ (s.setDom d x).symErr = s.symErr ∧ (s.setDom d x).tiles = s.tiles ∧
    (s.setDom d x).towers = s.towers ∧ (s.setDom d x).chans = s.chans ∧ (s.setDom d x).groups = s.groups ∧ (s.setDom d x).hops = s.hops ∧
    (s.setDom d x).fires = s.fires ∧ (s.setDom d x).abortMsgs = s.abortMsgs ∧ (s.setDom d x).abortReqs = s.abortReqs ∧
    (s.setDom d x).untimed = s.untimed ∧ (s.setDom d x).gadds = s.gadds ∧ (s.setDom d x).readies = s.readies ∧
    (s.setDom d x).reports = s.reports ∧ (s.setDom d x).ports = s.ports ∧ (s.setDom d x).paths = s.paths ∧
    (s.setDom d x).credits = s.credits ∧ (s.setDom d x).timeReq = s.timeReq ∧ (s.setDom d x).timeNo = s.timeNo ∧
    (s.setDom d x).retired = s.retired ∧ (s.setDom d x).hubs = s.hubs ∧ (s.setDom d x).verified = s.verified ∧
    (s.setDom d x).admSwitch = s.admSwitch ∧ (s.setDom d x).epDones = s.epDones ∧ (s.setDom d x).heats = s.heats ∧
    (s.setDom d x).sketches = s.sketches ∧ (s.setDom d x).keys = s.keys ∧ (s.setDom d x).tenants = s.tenants ∧
    (s.setDom d x).fuses = s.fuses ∧ (s.setDom d x).tokens = s.tokens ∧ (s.setDom d x).serials = s.serials ∧
    (s.setDom d x).gaugeTrig = s.gaugeTrig ∧ (s.setDom d x).uio = s.uio ∧ (s.setDom d x).slow = s.slow ∧ (s.setDom d x).uioNo = s.uioNo ∧
    (s.setDom d x).uioHeld = s.uioHeld ∧ (s.setDom d x).rcptJobs = s.rcptJobs ∧ (s.setDom d x).chains = s.chains ∧
    (s.setDom d x).quarAt = s.quarAt ∧ (s.setDom d x).wipes = s.wipes ∧ (s.setDom d x).commit = s.commit ∧
    (s.setDom d x).meters = s.meters ∧ (s.setDom d x).windowEnd = s.windowEnd ∧ (s.setDom d x).windows = s.windows ∧
    (s.setDom d x).energySub = s.energySub ∧ (s.setDom d x).retained = s.retained ∧ (s.setDom d x).cseq = s.cseq ∧
    (s.setDom d x).gaps = s.gaps ∧ (s.setDom d x).keeper = s.keeper ∧ (s.setDom d x).resetAt = s.resetAt ∧
    (s.setDom d x).wipedAt = s.wipedAt ∧ (s.setDom d x).retiers = s.retiers ∧ (s.setDom d x).reloads = s.reloads ∧
    (s.setDom d x).cases = s.cases ∧ (s.setDom d x).funnelQ = s.funnelQ ∧ (s.setDom d x).caseNo = s.caseNo ∧
    (s.setDom d x).lostReport = s.lostReport ∧ (s.setDom d x).routerKeys = s.routerKeys ∧ (s.setDom d x).past = s.past ∧
    (s.setDom d x).testMarks = s.testMarks ∧ (s.setDom d x).layerMarks = s.layerMarks ∧ (s.setDom d x).regionMarks = s.regionMarks ∧
    (s.setDom d x).cleared = s.cleared ∧ (s.setDom d x).capOk = s.capOk ∧ (s.setDom d x).opStaged = s.opStaged ∧
    (s.setDom d x).wakeQ = s.wakeQ ∧ (s.setDom d x).waking = s.waking ∧ (s.setDom d x).life = s.life ∧ (s.setDom d x).flash = s.flash ∧
    (s.setDom d x).boot = s.boot ∧ (s.setDom d x).thermTrip = s.thermTrip ∧ (s.setDom d x).bifNow = s.bifNow ∧
    (s.setDom d x).perst = s.perst ∧ (s.setDom d x).frozenAt = s.frozenAt ∧ (s.setDom d x).aonOk = s.aonOk ∧
    (s.setDom d x).pohAt = s.pohAt ∧ (s.setDom d x).ceTimes = s.ceTimes ∧ (s.setDom d x).ceCases = s.ceCases ∧
    (s.setDom d x).rewritten = s.rewritten ∧ (s.setDom d x).repairMarks = s.repairMarks ∧ (s.setDom d x).ideUp = s.ideUp ∧
    (s.setDom d x).mgmt = s.mgmt ∧ (s.setDom d x).mboxes = s.mboxes ∧ (s.setDom d x).out = s.out ∧ (s.setDom d x).wt = s.wt ∧
    (s.setDom d x).wtSub = s.wtSub ∧ (s.setDom d x).rateAdj = s.rateAdj ∧ (s.setDom d x).offs = s.offs ∧ (s.setDom d x).tbSrc = s.tbSrc ∧
    (s.setDom d x).ref = s.ref ∧ (s.setDom d x).timekeepers = s.timekeepers ∧ (s.setDom d x).monAt = s.monAt ∧
    (s.setDom d x).cal = s.cal ∧ (s.setDom d x).utcSet = s.utcSet ∧ (s.setDom d x).calFlash = s.calFlash ∧
    (s.setDom d x).stretch = s.stretch ∧ (s.setDom d x).waves = s.waves ∧ (s.setDom d x).clockStop = s.clockStop ∧
    (s.setDom d x).xtalOff = s.xtalOff ∧ (s.setDom d x).parked = s.parked ∧ (s.setDom d x).raised = s.raised ∧
    (s.setDom d x).free = s.free ∧ (s.setDom d x).pending = s.pending :=
  ⟨rfl, rfl, rfl, rfl, rfl, rfl, rfl, rfl, rfl, rfl, rfl, rfl, rfl, rfl, rfl, rfl, rfl, rfl, rfl, rfl, rfl, rfl, rfl, rfl, rfl, rfl, rfl,
   rfl, rfl, rfl, rfl, rfl, rfl, rfl, rfl, rfl, rfl, rfl, rfl, rfl, rfl, rfl, rfl, rfl, rfl, rfl, rfl, rfl, rfl, rfl, rfl, rfl, rfl, rfl,
   rfl, rfl, rfl, rfl, rfl, rfl, rfl, rfl, rfl, rfl, rfl, rfl, rfl, rfl, rfl, rfl, rfl, rfl, rfl, rfl, rfl, rfl, rfl, rfl, rfl, rfl, rfl,
   rfl, rfl, rfl, rfl, rfl, rfl, rfl, rfl, rfl, rfl, rfl, rfl, rfl, rfl, rfl, rfl, rfl, rfl, rfl, rfl, rfl, rfl, rfl, rfl, rfl⟩

@[simp] theorem State.sendReport_frame (s : State) (r : Report) :
    (s.sendReport r).regs = s.regs ∧ (s.sendReport r).applied = s.applied ∧ (s.sendReport r).mem = s.mem ∧
    (s.sendReport r).crcDelta = s.crcDelta ∧ (s.sendReport r).symErr = s.symErr ∧ (s.sendReport r).tiles = s.tiles ∧
    (s.sendReport r).towers = s.towers ∧ (s.sendReport r).doms = s.doms ∧ (s.sendReport r).chans = s.chans ∧
    (s.sendReport r).groups = s.groups ∧ (s.sendReport r).hops = s.hops ∧ (s.sendReport r).fires = s.fires ∧
    (s.sendReport r).abortMsgs = s.abortMsgs ∧ (s.sendReport r).abortReqs = s.abortReqs ∧ (s.sendReport r).untimed = s.untimed ∧
    (s.sendReport r).gadds = s.gadds ∧ (s.sendReport r).readies = s.readies ∧ (s.sendReport r).ports = s.ports ∧
    (s.sendReport r).paths = s.paths ∧ (s.sendReport r).credits = s.credits ∧ (s.sendReport r).timeReq = s.timeReq ∧
    (s.sendReport r).timeNo = s.timeNo ∧ (s.sendReport r).retired = s.retired ∧ (s.sendReport r).hubs = s.hubs ∧
    (s.sendReport r).verified = s.verified ∧ (s.sendReport r).admSwitch = s.admSwitch ∧ (s.sendReport r).epDones = s.epDones ∧
    (s.sendReport r).heats = s.heats ∧ (s.sendReport r).sketches = s.sketches ∧ (s.sendReport r).keys = s.keys ∧
    (s.sendReport r).tenants = s.tenants ∧ (s.sendReport r).fuses = s.fuses ∧ (s.sendReport r).tokens = s.tokens ∧
    (s.sendReport r).serials = s.serials ∧ (s.sendReport r).gaugeTrig = s.gaugeTrig ∧ (s.sendReport r).uio = s.uio ∧
    (s.sendReport r).slow = s.slow ∧ (s.sendReport r).uioNo = s.uioNo ∧ (s.sendReport r).uioHeld = s.uioHeld ∧
    (s.sendReport r).rcptJobs = s.rcptJobs ∧ (s.sendReport r).chains = s.chains ∧ (s.sendReport r).quarAt = s.quarAt ∧
    (s.sendReport r).wipes = s.wipes ∧ (s.sendReport r).commit = s.commit ∧ (s.sendReport r).meters = s.meters ∧
    (s.sendReport r).windowEnd = s.windowEnd ∧ (s.sendReport r).windows = s.windows ∧ (s.sendReport r).energySub = s.energySub ∧
    (s.sendReport r).retained = s.retained ∧ (s.sendReport r).cseq = s.cseq ∧ (s.sendReport r).gaps = s.gaps ∧
    (s.sendReport r).keeper = s.keeper ∧ (s.sendReport r).resetAt = s.resetAt ∧ (s.sendReport r).wipedAt = s.wipedAt ∧
    (s.sendReport r).retiers = s.retiers ∧ (s.sendReport r).reloads = s.reloads ∧ (s.sendReport r).cases = s.cases ∧
    (s.sendReport r).funnelQ = s.funnelQ ∧ (s.sendReport r).caseNo = s.caseNo ∧ (s.sendReport r).lostReport = s.lostReport ∧
    (s.sendReport r).routerKeys = s.routerKeys ∧ (s.sendReport r).past = s.past ∧ (s.sendReport r).testMarks = s.testMarks ∧
    (s.sendReport r).layerMarks = s.layerMarks ∧ (s.sendReport r).regionMarks = s.regionMarks ∧ (s.sendReport r).cleared = s.cleared ∧
    (s.sendReport r).capOk = s.capOk ∧ (s.sendReport r).opStaged = s.opStaged ∧ (s.sendReport r).wakeQ = s.wakeQ ∧
    (s.sendReport r).waking = s.waking ∧ (s.sendReport r).life = s.life ∧ (s.sendReport r).flash = s.flash ∧
    (s.sendReport r).boot = s.boot ∧ (s.sendReport r).thermTrip = s.thermTrip ∧ (s.sendReport r).bifNow = s.bifNow ∧
    (s.sendReport r).perst = s.perst ∧ (s.sendReport r).frozenAt = s.frozenAt ∧ (s.sendReport r).aonOk = s.aonOk ∧
    (s.sendReport r).pohAt = s.pohAt ∧ (s.sendReport r).ceTimes = s.ceTimes ∧ (s.sendReport r).ceCases = s.ceCases ∧
    (s.sendReport r).rewritten = s.rewritten ∧ (s.sendReport r).repairMarks = s.repairMarks ∧ (s.sendReport r).ideUp = s.ideUp ∧
    (s.sendReport r).mgmt = s.mgmt ∧ (s.sendReport r).mboxes = s.mboxes ∧ (s.sendReport r).out = s.out ∧ (s.sendReport r).wt = s.wt ∧
    (s.sendReport r).wtSub = s.wtSub ∧ (s.sendReport r).rateAdj = s.rateAdj ∧ (s.sendReport r).offs = s.offs ∧
    (s.sendReport r).tbSrc = s.tbSrc ∧ (s.sendReport r).ref = s.ref ∧ (s.sendReport r).timekeepers = s.timekeepers ∧
    (s.sendReport r).monAt = s.monAt ∧ (s.sendReport r).cal = s.cal ∧ (s.sendReport r).utcSet = s.utcSet ∧
    (s.sendReport r).calFlash = s.calFlash ∧ (s.sendReport r).stretch = s.stretch ∧ (s.sendReport r).waves = s.waves ∧
    (s.sendReport r).clockStop = s.clockStop ∧ (s.sendReport r).xtalOff = s.xtalOff ∧ (s.sendReport r).parked = s.parked ∧
    (s.sendReport r).raised = s.raised ∧ (s.sendReport r).free = s.free ∧ (s.sendReport r).pending = s.pending :=
  ⟨rfl, rfl, rfl, rfl, rfl, rfl, rfl, rfl, rfl, rfl, rfl, rfl, rfl, rfl, rfl, rfl, rfl, rfl, rfl, rfl, rfl, rfl, rfl, rfl, rfl, rfl, rfl,
   rfl, rfl, rfl, rfl, rfl, rfl, rfl, rfl, rfl, rfl, rfl, rfl, rfl, rfl, rfl, rfl, rfl, rfl, rfl, rfl, rfl, rfl, rfl, rfl, rfl, rfl, rfl,
   rfl, rfl, rfl, rfl, rfl, rfl, rfl, rfl, rfl, rfl, rfl, rfl, rfl, rfl, rfl, rfl, rfl, rfl, rfl, rfl, rfl, rfl, rfl, rfl, rfl, rfl, rfl,
   rfl, rfl, rfl, rfl, rfl, rfl, rfl, rfl, rfl, rfl, rfl, rfl, rfl, rfl, rfl, rfl, rfl, rfl, rfl, rfl, rfl, rfl, rfl, rfl, rfl⟩

@[simp] theorem State.lifeAdd_frame (s : State) (k n : Nat) :
    (s.lifeAdd k n).regs = s.regs ∧ (s.lifeAdd k n).applied = s.applied ∧ (s.lifeAdd k n).mem = s.mem ∧
    (s.lifeAdd k n).crcDelta = s.crcDelta ∧ (s.lifeAdd k n).symErr = s.symErr ∧ (s.lifeAdd k n).tiles = s.tiles ∧
    (s.lifeAdd k n).towers = s.towers ∧ (s.lifeAdd k n).doms = s.doms ∧ (s.lifeAdd k n).chans = s.chans ∧
    (s.lifeAdd k n).groups = s.groups ∧ (s.lifeAdd k n).hops = s.hops ∧ (s.lifeAdd k n).fires = s.fires ∧
    (s.lifeAdd k n).abortMsgs = s.abortMsgs ∧ (s.lifeAdd k n).abortReqs = s.abortReqs ∧ (s.lifeAdd k n).untimed = s.untimed ∧
    (s.lifeAdd k n).gadds = s.gadds ∧ (s.lifeAdd k n).readies = s.readies ∧ (s.lifeAdd k n).reports = s.reports ∧
    (s.lifeAdd k n).ports = s.ports ∧ (s.lifeAdd k n).paths = s.paths ∧ (s.lifeAdd k n).credits = s.credits ∧
    (s.lifeAdd k n).timeReq = s.timeReq ∧ (s.lifeAdd k n).timeNo = s.timeNo ∧ (s.lifeAdd k n).retired = s.retired ∧
    (s.lifeAdd k n).hubs = s.hubs ∧ (s.lifeAdd k n).verified = s.verified ∧ (s.lifeAdd k n).admSwitch = s.admSwitch ∧
    (s.lifeAdd k n).epDones = s.epDones ∧ (s.lifeAdd k n).heats = s.heats ∧ (s.lifeAdd k n).sketches = s.sketches ∧
    (s.lifeAdd k n).keys = s.keys ∧ (s.lifeAdd k n).tenants = s.tenants ∧ (s.lifeAdd k n).fuses = s.fuses ∧
    (s.lifeAdd k n).tokens = s.tokens ∧ (s.lifeAdd k n).serials = s.serials ∧ (s.lifeAdd k n).gaugeTrig = s.gaugeTrig ∧
    (s.lifeAdd k n).uio = s.uio ∧ (s.lifeAdd k n).slow = s.slow ∧ (s.lifeAdd k n).uioNo = s.uioNo ∧ (s.lifeAdd k n).uioHeld = s.uioHeld ∧
    (s.lifeAdd k n).rcptJobs = s.rcptJobs ∧ (s.lifeAdd k n).chains = s.chains ∧ (s.lifeAdd k n).quarAt = s.quarAt ∧
    (s.lifeAdd k n).wipes = s.wipes ∧ (s.lifeAdd k n).commit = s.commit ∧ (s.lifeAdd k n).meters = s.meters ∧
    (s.lifeAdd k n).windowEnd = s.windowEnd ∧ (s.lifeAdd k n).windows = s.windows ∧ (s.lifeAdd k n).energySub = s.energySub ∧
    (s.lifeAdd k n).retained = s.retained ∧ (s.lifeAdd k n).cseq = s.cseq ∧ (s.lifeAdd k n).gaps = s.gaps ∧
    (s.lifeAdd k n).keeper = s.keeper ∧ (s.lifeAdd k n).resetAt = s.resetAt ∧ (s.lifeAdd k n).wipedAt = s.wipedAt ∧
    (s.lifeAdd k n).retiers = s.retiers ∧ (s.lifeAdd k n).reloads = s.reloads ∧ (s.lifeAdd k n).cases = s.cases ∧
    (s.lifeAdd k n).funnelQ = s.funnelQ ∧ (s.lifeAdd k n).caseNo = s.caseNo ∧ (s.lifeAdd k n).lostReport = s.lostReport ∧
    (s.lifeAdd k n).routerKeys = s.routerKeys ∧ (s.lifeAdd k n).past = s.past ∧ (s.lifeAdd k n).testMarks = s.testMarks ∧
    (s.lifeAdd k n).layerMarks = s.layerMarks ∧ (s.lifeAdd k n).regionMarks = s.regionMarks ∧ (s.lifeAdd k n).cleared = s.cleared ∧
    (s.lifeAdd k n).capOk = s.capOk ∧ (s.lifeAdd k n).opStaged = s.opStaged ∧ (s.lifeAdd k n).wakeQ = s.wakeQ ∧
    (s.lifeAdd k n).waking = s.waking ∧ (s.lifeAdd k n).flash = s.flash ∧ (s.lifeAdd k n).boot = s.boot ∧
    (s.lifeAdd k n).thermTrip = s.thermTrip ∧ (s.lifeAdd k n).bifNow = s.bifNow ∧ (s.lifeAdd k n).perst = s.perst ∧
    (s.lifeAdd k n).frozenAt = s.frozenAt ∧ (s.lifeAdd k n).aonOk = s.aonOk ∧ (s.lifeAdd k n).pohAt = s.pohAt ∧
    (s.lifeAdd k n).ceTimes = s.ceTimes ∧ (s.lifeAdd k n).ceCases = s.ceCases ∧ (s.lifeAdd k n).rewritten = s.rewritten ∧
    (s.lifeAdd k n).repairMarks = s.repairMarks ∧ (s.lifeAdd k n).ideUp = s.ideUp ∧ (s.lifeAdd k n).mgmt = s.mgmt ∧
    (s.lifeAdd k n).mboxes = s.mboxes ∧ (s.lifeAdd k n).out = s.out ∧ (s.lifeAdd k n).wt = s.wt ∧ (s.lifeAdd k n).wtSub = s.wtSub ∧
    (s.lifeAdd k n).rateAdj = s.rateAdj ∧ (s.lifeAdd k n).offs = s.offs ∧ (s.lifeAdd k n).tbSrc = s.tbSrc ∧ (s.lifeAdd k n).ref = s.ref ∧
    (s.lifeAdd k n).timekeepers = s.timekeepers ∧ (s.lifeAdd k n).monAt = s.monAt ∧ (s.lifeAdd k n).cal = s.cal ∧
    (s.lifeAdd k n).utcSet = s.utcSet ∧ (s.lifeAdd k n).calFlash = s.calFlash ∧ (s.lifeAdd k n).stretch = s.stretch ∧
    (s.lifeAdd k n).waves = s.waves ∧ (s.lifeAdd k n).clockStop = s.clockStop ∧ (s.lifeAdd k n).xtalOff = s.xtalOff ∧
    (s.lifeAdd k n).parked = s.parked ∧ (s.lifeAdd k n).raised = s.raised ∧ (s.lifeAdd k n).free = s.free ∧
    (s.lifeAdd k n).pending = s.pending :=
  ⟨rfl, rfl, rfl, rfl, rfl, rfl, rfl, rfl, rfl, rfl, rfl, rfl, rfl, rfl, rfl, rfl, rfl, rfl, rfl, rfl, rfl, rfl, rfl, rfl, rfl, rfl, rfl,
   rfl, rfl, rfl, rfl, rfl, rfl, rfl, rfl, rfl, rfl, rfl, rfl, rfl, rfl, rfl, rfl, rfl, rfl, rfl, rfl, rfl, rfl, rfl, rfl, rfl, rfl, rfl,
   rfl, rfl, rfl, rfl, rfl, rfl, rfl, rfl, rfl, rfl, rfl, rfl, rfl, rfl, rfl, rfl, rfl, rfl, rfl, rfl, rfl, rfl, rfl, rfl, rfl, rfl, rfl,
   rfl, rfl, rfl, rfl, rfl, rfl, rfl, rfl, rfl, rfl, rfl, rfl, rfl, rfl, rfl, rfl, rfl, rfl, rfl, rfl, rfl, rfl, rfl, rfl, rfl⟩

@[simp] theorem State.zeroRange_frame (s : State) (lo hi : Nat) :
    (s.zeroRange lo hi).regs = s.regs ∧ (s.zeroRange lo hi).applied = s.applied ∧ (s.zeroRange lo hi).crcDelta = s.crcDelta ∧
    (s.zeroRange lo hi).symErr = s.symErr ∧ (s.zeroRange lo hi).tiles = s.tiles ∧ (s.zeroRange lo hi).towers = s.towers ∧
    (s.zeroRange lo hi).doms = s.doms ∧ (s.zeroRange lo hi).chans = s.chans ∧ (s.zeroRange lo hi).groups = s.groups ∧
    (s.zeroRange lo hi).hops = s.hops ∧ (s.zeroRange lo hi).fires = s.fires ∧ (s.zeroRange lo hi).abortMsgs = s.abortMsgs ∧
    (s.zeroRange lo hi).abortReqs = s.abortReqs ∧ (s.zeroRange lo hi).untimed = s.untimed ∧ (s.zeroRange lo hi).gadds = s.gadds ∧
    (s.zeroRange lo hi).readies = s.readies ∧ (s.zeroRange lo hi).reports = s.reports ∧ (s.zeroRange lo hi).ports = s.ports ∧
    (s.zeroRange lo hi).paths = s.paths ∧ (s.zeroRange lo hi).credits = s.credits ∧ (s.zeroRange lo hi).timeReq = s.timeReq ∧
    (s.zeroRange lo hi).timeNo = s.timeNo ∧ (s.zeroRange lo hi).retired = s.retired ∧ (s.zeroRange lo hi).hubs = s.hubs ∧
    (s.zeroRange lo hi).verified = s.verified ∧ (s.zeroRange lo hi).admSwitch = s.admSwitch ∧ (s.zeroRange lo hi).epDones = s.epDones ∧
    (s.zeroRange lo hi).heats = s.heats ∧ (s.zeroRange lo hi).sketches = s.sketches ∧ (s.zeroRange lo hi).keys = s.keys ∧
    (s.zeroRange lo hi).tenants = s.tenants ∧ (s.zeroRange lo hi).fuses = s.fuses ∧ (s.zeroRange lo hi).tokens = s.tokens ∧
    (s.zeroRange lo hi).serials = s.serials ∧ (s.zeroRange lo hi).gaugeTrig = s.gaugeTrig ∧ (s.zeroRange lo hi).uio = s.uio ∧
    (s.zeroRange lo hi).slow = s.slow ∧ (s.zeroRange lo hi).uioNo = s.uioNo ∧ (s.zeroRange lo hi).uioHeld = s.uioHeld ∧
    (s.zeroRange lo hi).rcptJobs = s.rcptJobs ∧ (s.zeroRange lo hi).chains = s.chains ∧ (s.zeroRange lo hi).quarAt = s.quarAt ∧
    (s.zeroRange lo hi).wipes = s.wipes ∧ (s.zeroRange lo hi).commit = s.commit ∧ (s.zeroRange lo hi).meters = s.meters ∧
    (s.zeroRange lo hi).windowEnd = s.windowEnd ∧ (s.zeroRange lo hi).windows = s.windows ∧ (s.zeroRange lo hi).energySub = s.energySub ∧
    (s.zeroRange lo hi).retained = s.retained ∧ (s.zeroRange lo hi).cseq = s.cseq ∧ (s.zeroRange lo hi).gaps = s.gaps ∧
    (s.zeroRange lo hi).keeper = s.keeper ∧ (s.zeroRange lo hi).resetAt = s.resetAt ∧ (s.zeroRange lo hi).wipedAt = s.wipedAt ∧
    (s.zeroRange lo hi).retiers = s.retiers ∧ (s.zeroRange lo hi).reloads = s.reloads ∧ (s.zeroRange lo hi).cases = s.cases ∧
    (s.zeroRange lo hi).funnelQ = s.funnelQ ∧ (s.zeroRange lo hi).caseNo = s.caseNo ∧ (s.zeroRange lo hi).lostReport = s.lostReport ∧
    (s.zeroRange lo hi).routerKeys = s.routerKeys ∧ (s.zeroRange lo hi).past = s.past ∧ (s.zeroRange lo hi).testMarks = s.testMarks ∧
    (s.zeroRange lo hi).layerMarks = s.layerMarks ∧ (s.zeroRange lo hi).regionMarks = s.regionMarks ∧
    (s.zeroRange lo hi).cleared = s.cleared ∧ (s.zeroRange lo hi).capOk = s.capOk ∧ (s.zeroRange lo hi).opStaged = s.opStaged ∧
    (s.zeroRange lo hi).wakeQ = s.wakeQ ∧ (s.zeroRange lo hi).waking = s.waking ∧ (s.zeroRange lo hi).life = s.life ∧
    (s.zeroRange lo hi).flash = s.flash ∧ (s.zeroRange lo hi).boot = s.boot ∧ (s.zeroRange lo hi).thermTrip = s.thermTrip ∧
    (s.zeroRange lo hi).bifNow = s.bifNow ∧ (s.zeroRange lo hi).perst = s.perst ∧ (s.zeroRange lo hi).frozenAt = s.frozenAt ∧
    (s.zeroRange lo hi).aonOk = s.aonOk ∧ (s.zeroRange lo hi).pohAt = s.pohAt ∧ (s.zeroRange lo hi).ceTimes = s.ceTimes ∧
    (s.zeroRange lo hi).ceCases = s.ceCases ∧ (s.zeroRange lo hi).rewritten = s.rewritten ∧
    (s.zeroRange lo hi).repairMarks = s.repairMarks ∧ (s.zeroRange lo hi).ideUp = s.ideUp ∧ (s.zeroRange lo hi).mgmt = s.mgmt ∧
    (s.zeroRange lo hi).mboxes = s.mboxes ∧ (s.zeroRange lo hi).out = s.out ∧ (s.zeroRange lo hi).wt = s.wt ∧
    (s.zeroRange lo hi).wtSub = s.wtSub ∧ (s.zeroRange lo hi).rateAdj = s.rateAdj ∧ (s.zeroRange lo hi).offs = s.offs ∧
    (s.zeroRange lo hi).tbSrc = s.tbSrc ∧ (s.zeroRange lo hi).ref = s.ref ∧ (s.zeroRange lo hi).timekeepers = s.timekeepers ∧
    (s.zeroRange lo hi).monAt = s.monAt ∧ (s.zeroRange lo hi).cal = s.cal ∧ (s.zeroRange lo hi).utcSet = s.utcSet ∧
    (s.zeroRange lo hi).calFlash = s.calFlash ∧ (s.zeroRange lo hi).stretch = s.stretch ∧ (s.zeroRange lo hi).waves = s.waves ∧
    (s.zeroRange lo hi).clockStop = s.clockStop ∧ (s.zeroRange lo hi).xtalOff = s.xtalOff ∧ (s.zeroRange lo hi).parked = s.parked ∧
    (s.zeroRange lo hi).raised = s.raised ∧ (s.zeroRange lo hi).free = s.free ∧ (s.zeroRange lo hi).pending = s.pending :=
  ⟨rfl, rfl, rfl, rfl, rfl, rfl, rfl, rfl, rfl, rfl, rfl, rfl, rfl, rfl, rfl, rfl, rfl, rfl, rfl, rfl, rfl, rfl, rfl, rfl, rfl, rfl, rfl,
   rfl, rfl, rfl, rfl, rfl, rfl, rfl, rfl, rfl, rfl, rfl, rfl, rfl, rfl, rfl, rfl, rfl, rfl, rfl, rfl, rfl, rfl, rfl, rfl, rfl, rfl, rfl,
   rfl, rfl, rfl, rfl, rfl, rfl, rfl, rfl, rfl, rfl, rfl, rfl, rfl, rfl, rfl, rfl, rfl, rfl, rfl, rfl, rfl, rfl, rfl, rfl, rfl, rfl, rfl,
   rfl, rfl, rfl, rfl, rfl, rfl, rfl, rfl, rfl, rfl, rfl, rfl, rfl, rfl, rfl, rfl, rfl, rfl, rfl, rfl, rfl, rfl, rfl, rfl, rfl⟩

@[simp] theorem Tile.setReg_frame (x : Tile) (r : Reg) (i : List Nat) (v : W64) :
    (x.setReg r i v).thr = x.thr ∧ (x.setReg r i v).flip = x.flip ∧ (x.setReg r i v).lastGather = x.lastGather ∧
    (x.setReg r i v).used = x.used ∧ (x.setReg r i v).claims = x.claims ∧ (x.setReg r i v).gpend = x.gpend ∧
    (x.setReg r i v).ringD = x.ringD ∧ (x.setReg r i v).mxq = x.mxq ∧ (x.setReg r i v).vxq = x.vxq ∧ (x.setReg r i v).xfq = x.xfq ∧
    (x.setReg r i v).sendq = x.sendq ∧ (x.setReg r i v).arms = x.arms ∧ (x.setReg r i v).fires = x.fires ∧
    (x.setReg r i v).ckpt = x.ckpt ∧ (x.setReg r i v).slots = x.slots ∧ (x.setReg r i v).links = x.links ∧
    (x.setReg r i v).refetch = x.refetch ∧ (x.setReg r i v).starts = x.starts ∧ (x.setReg r i v).csrw = x.csrw ∧
    (x.setReg r i v).raised = x.raised ∧ (x.setReg r i v).awaitA = x.awaitA ∧ (x.setReg r i v).hopShut = x.hopShut ∧
    (x.setReg r i v).held = x.held ∧ (x.setReg r i v).seenR0 = x.seenR0 ∧ (x.setReg r i v).late = x.late ∧ (x.setReg r i v).mxe = x.mxe ∧
    (x.setReg r i v).vxe = x.vxe ∧ (x.setReg r i v).xfe = x.xfe :=
  ⟨rfl, rfl, rfl, rfl, rfl, rfl, rfl, rfl, rfl, rfl, rfl, rfl, rfl, rfl, rfl, rfl, rfl, rfl, rfl, rfl, rfl, rfl, rfl, rfl, rfl, rfl, rfl,
   rfl⟩

@[simp] theorem Tile.setFld_frame (x : Tile) (r : Reg) (i : List Nat) (f : Fld) (v : Nat) :
    (x.setFld r i f v).thr = x.thr ∧ (x.setFld r i f v).flip = x.flip ∧ (x.setFld r i f v).lastGather = x.lastGather ∧
    (x.setFld r i f v).used = x.used ∧ (x.setFld r i f v).claims = x.claims ∧ (x.setFld r i f v).gpend = x.gpend ∧
    (x.setFld r i f v).ringD = x.ringD ∧ (x.setFld r i f v).mxq = x.mxq ∧ (x.setFld r i f v).vxq = x.vxq ∧
    (x.setFld r i f v).xfq = x.xfq ∧ (x.setFld r i f v).sendq = x.sendq ∧ (x.setFld r i f v).arms = x.arms ∧
    (x.setFld r i f v).fires = x.fires ∧ (x.setFld r i f v).ckpt = x.ckpt ∧ (x.setFld r i f v).slots = x.slots ∧
    (x.setFld r i f v).links = x.links ∧ (x.setFld r i f v).refetch = x.refetch ∧ (x.setFld r i f v).starts = x.starts ∧
    (x.setFld r i f v).csrw = x.csrw ∧ (x.setFld r i f v).awaitA = x.awaitA ∧ (x.setFld r i f v).hopShut = x.hopShut ∧
    (x.setFld r i f v).held = x.held ∧ (x.setFld r i f v).seenR0 = x.seenR0 ∧ (x.setFld r i f v).late = x.late ∧
    (x.setFld r i f v).mxe = x.mxe ∧ (x.setFld r i f v).vxe = x.vxe ∧ (x.setFld r i f v).xfe = x.xfe :=
  ⟨rfl, rfl, rfl, rfl, rfl, rfl, rfl, rfl, rfl, rfl, rfl, rfl, rfl, rfl, rfl, rfl, rfl, rfl, rfl, rfl, rfl, rfl, rfl, rfl, rfl, rfl, rfl⟩

@[simp] theorem Tile.setTh_frame (x : Tile) (n : Nat) (y : Thread) :
    (x.setTh n y).regs = x.regs ∧ (x.setTh n y).flip = x.flip ∧ (x.setTh n y).lastGather = x.lastGather ∧ (x.setTh n y).used = x.used ∧
    (x.setTh n y).claims = x.claims ∧ (x.setTh n y).gpend = x.gpend ∧ (x.setTh n y).ringD = x.ringD ∧ (x.setTh n y).mxq = x.mxq ∧
    (x.setTh n y).vxq = x.vxq ∧ (x.setTh n y).xfq = x.xfq ∧ (x.setTh n y).sendq = x.sendq ∧ (x.setTh n y).arms = x.arms ∧
    (x.setTh n y).fires = x.fires ∧ (x.setTh n y).ckpt = x.ckpt ∧ (x.setTh n y).slots = x.slots ∧ (x.setTh n y).links = x.links ∧
    (x.setTh n y).refetch = x.refetch ∧ (x.setTh n y).starts = x.starts ∧ (x.setTh n y).csrw = x.csrw ∧ (x.setTh n y).raised = x.raised ∧
    (x.setTh n y).awaitA = x.awaitA ∧ (x.setTh n y).hopShut = x.hopShut ∧ (x.setTh n y).held = x.held ∧ (x.setTh n y).seenR0 = x.seenR0 ∧
    (x.setTh n y).late = x.late ∧ (x.setTh n y).mxe = x.mxe ∧ (x.setTh n y).vxe = x.vxe ∧ (x.setTh n y).xfe = x.xfe :=
  ⟨rfl, rfl, rfl, rfl, rfl, rfl, rfl, rfl, rfl, rfl, rfl, rfl, rfl, rfl, rfl, rfl, rfl, rfl, rfl, rfl, rfl, rfl, rfl, rfl, rfl, rfl, rfl,
   rfl⟩

@[simp] theorem Tile.gchange_frame (x : Tile) (c : GChange) :
    (x.gchange c).regs = x.regs ∧ (x.gchange c).thr = x.thr ∧ (x.gchange c).flip = x.flip ∧ (x.gchange c).lastGather = x.lastGather ∧
    (x.gchange c).used = x.used ∧ (x.gchange c).claims = x.claims ∧ (x.gchange c).ringD = x.ringD ∧ (x.gchange c).mxq = x.mxq ∧
    (x.gchange c).vxq = x.vxq ∧ (x.gchange c).xfq = x.xfq ∧ (x.gchange c).sendq = x.sendq ∧ (x.gchange c).arms = x.arms ∧
    (x.gchange c).fires = x.fires ∧ (x.gchange c).ckpt = x.ckpt ∧ (x.gchange c).slots = x.slots ∧ (x.gchange c).links = x.links ∧
    (x.gchange c).refetch = x.refetch ∧ (x.gchange c).starts = x.starts ∧ (x.gchange c).csrw = x.csrw ∧ (x.gchange c).raised = x.raised ∧
    (x.gchange c).awaitA = x.awaitA ∧ (x.gchange c).hopShut = x.hopShut ∧ (x.gchange c).held = x.held ∧ (x.gchange c).seenR0 = x.seenR0 ∧
    (x.gchange c).late = x.late ∧ (x.gchange c).mxe = x.mxe ∧ (x.gchange c).vxe = x.vxe ∧ (x.gchange c).xfe = x.xfe :=
  ⟨rfl, rfl, rfl, rfl, rfl, rfl, rfl, rfl, rfl, rfl, rfl, rfl, rfl, rfl, rfl, rfl, rfl, rfl, rfl, rfl, rfl, rfl, rfl, rfl, rfl, rfl, rfl,
   rfl⟩

/-! ### Reading what was written -/

/-- A register at another home is left alone. -/
theorem State.reg_setReg_other (s : State) (r q : Reg) (i j : List Nat) (v : W64) (h : q.loc j ≠ r.loc i) :
    (s.setReg r i v).reg q j = s.reg q j := by
  exact sget_sput_other _ _ _ _ _ _ h

/-- A tile register at another home is left alone. -/
theorem Tile.reg_setReg_other (x : Tile) (r q : Reg) (i j : List Nat) (v : W64) (h : q.loc j ≠ r.loc i) :
    (x.setReg r i v).reg q j = x.reg q j := by
  exact sget_sput_other _ _ _ _ _ _ h

@[simp] theorem State.reg_setReg_same (s : State) (r : Reg) (i : List Nat) (v : W64) : (s.setReg r i v).reg r i = v := by
  simp [State.reg, State.setReg]

@[simp] theorem Tile.reg_setReg_same (x : Tile) (r : Reg) (i : List Nat) (v : W64) : (x.setReg r i v).reg r i = v := by
  simp [Tile.reg, Tile.setReg]

@[simp] theorem State.tile_setTile_same (s : State) (t : Nat) (x : Tile) : (s.setTile t x).tile t = x := by
  simp [State.tile, State.setTile]

theorem State.tile_setTile (s : State) (t k : Nat) (x : Tile) : (s.setTile t x).tile k = if k = t then x else s.tile k := by
  simp [State.tile, State.setTile, sget_sput]

@[simp] theorem State.tile_modTile_same (s : State) (t : Nat) (f : Tile → Tile) : (s.modTile t f).tile t = f (s.tile t) := by
  simp [State.modTile]

theorem State.tile_modTile (s : State) (t k : Nat) (f : Tile → Tile) :
    (s.modTile t f).tile k = if k = t then f (s.tile t) else s.tile k := by
  simp [State.modTile, State.tile_setTile]

@[simp] theorem Tile.th_setTh_same (x : Tile) (n : Nat) (y : Thread) : (x.setTh n y).th n = y := by
  simp [Tile.th, Tile.setTh]

theorem Tile.th_setTh (x : Tile) (n k : Nat) (y : Thread) : (x.setTh n y).th k = if k = n then y else x.th k := by
  simp [Tile.th, Tile.setTh, sget_sput]

@[simp] theorem State.dom_setDom_same (s : State) (d : Nat) (x : Domain) : (s.setDom d x).dom d = x := by
  simp [State.dom, State.setDom]

theorem State.byte_setByte (s : State) (a k : Nat) (b : Byte) : (s.setByte a b).byte k = if k = a then b else s.byte k := by
  simp [State.byte, State.setByte, sget_sput]

/-- A scalar register reads what was written last; s0 reads zero and takes nothing (Table 4-1). -/
theorem Thread.sreg_setS (x : Thread) (n k : Nat) (v : W64) :
    (x.setS n v).sreg k = if k = n then (if n = 0 then 0 else v) else x.sreg k := by
  unfold Thread.setS Thread.sreg
  by_cases hk : k = 0 <;> by_cases hn : n = 0 <;> simp [hk, hn, sget_sput]
  omega

/-! ### The canonical form of memory -/

theorem State.setByte_wf (s : State) (a : Nat) (b : Byte) (h : Memory.wf s.mem) : Memory.wf (s.setByte a b).mem :=
  swf_sput _ _ _ _ h

@[simp] theorem State.setBytes_pending (s : State) (a : Nat) (b : Bytes) : (s.setBytes a b).pending = s.pending := by
  induction b generalizing s a with
  | nil => rfl
  | cons x b ih => simp [State.setBytes, ih]

theorem State.setBytes_wf (s : State) (a : Nat) (b : Bytes) (h : Memory.wf s.mem) : Memory.wf (s.setBytes a b).mem := by
  induction b generalizing s a with
  | nil => exact h
  | cons x b ih => exact ih _ _ (State.setByte_wf s a x h)

theorem State.zeroRange_wf (s : State) (lo hi : Nat) (h : Memory.wf s.mem) : Memory.wf (s.zeroRange lo hi).mem :=
  swf_filter _ _ _ h

/-- A byte of stored bytes reads as stored, every other byte as before. -/
theorem State.byte_setBytes (s : State) (a k : Nat) (b : Bytes) :
    (s.setBytes a b).byte k = if a ≤ k ∧ k < a + b.length then byteAt b (k - a) else s.byte k := by
  induction b generalizing s a with
  | nil => rw [if_neg (by simp)]; rfl
  | cons x b ih =>
    rw [State.setBytes, ih, State.byte_setByte]
    by_cases h1 : k = a
    · subst h1; simp [byteAt]
    · by_cases h2 : a + 1 ≤ k ∧ k < a + 1 + b.length
      · rw [if_pos h2, if_pos (by simp; omega)]
        obtain ⟨m, rfl⟩ : ∃ m, k = a + 1 + m := ⟨k - (a + 1), by omega⟩
        rw [show a + 1 + m - a = m + 1 by omega]; simp [byteAt]
      · rw [if_neg h2, if_neg h1, if_neg (by simp; omega)]

end Sys2Proof.Machine
end

