-- ==== Sys2Proof/Laws/Core.lean ====
section
/-! SUPPORT. What issue, retirement and faults of core instructions do. -/
namespace Sys2Proof.Machine

@[simp] theorem State.clockOn_modTile (s : State) (t k : Nat) (f : Tile → Tile) : (s.modTile t f).clockOn k = s.clockOn k := rfl
@[simp] theorem State.fc_modTile (s : State) (t k : Nat) (f : Tile → Tile) : (s.modTile t f).fc k = s.fc k := rfl
@[simp] theorem State.byte_modTile (s : State) (t k : Nat) (f : Tile → Tile) : (s.modTile t f).byte k = s.byte k := rfl
@[simp] theorem State.bytes_modTile (s : State) (t k n : Nat) (f : Tile → Tile) : (s.modTile t f).bytes k n = s.bytes k n := by
  induction n generalizing k with
  | zero => rfl
  | succ n ih => simp [State.bytes, ih]

/-- The fc of the instruction has come, its slot is taken: nothing else has changed in the tile. -/
theorem State.tile_issued (s : State) (t th : Nat) :
    (s.issued t th).tile t = { (s.atIssue t th).tile t with
      used := 0 :: ((s.atIssue t th).tile t).used,
      lastGather := if th = 0 then ((s.atIssue t th).tile t).lastGather else th } := by
  unfold State.issued State.takeSlot; split <;> simp [*]

theorem State.tile_issued_other (s : State) (t th k : Nat) (h : k ≠ t) : (s.issued t th).tile k = (s.atIssue t th).tile k := by
  unfold State.issued State.takeSlot; split <;> simp [State.tile_modTile, h]

theorem State.issued_eq (s : State) (t th : Nat) : s.issued t th = { s.atIssue t th with tiles := (s.issued t th).tiles } := by
  unfold State.issued State.takeSlot; split <;> rfl

@[simp] theorem State.clockOn_issued (s : State) (t th k : Nat) : (s.issued t th).clockOn k = (s.atIssue t th).clockOn k := by
  unfold State.issued State.takeSlot; split <;> rfl
@[simp] theorem State.fc_issued (s : State) (t th k : Nat) : (s.issued t th).fc k = (s.atIssue t th).fc k := by
  unfold State.issued State.takeSlot; split <;> rfl
@[simp] theorem State.byte_issued (s : State) (t th k : Nat) : (s.issued t th).byte k = (s.atIssue t th).byte k := by
  unfold State.issued State.takeSlot; split <;> rfl

/-- Where the clock of the tile runs before and after, `onClock` is what it is given. -/
theorem State.onClock_eq {s u : State} {t : Nat} {k : State → State} (hc : s.clockOn t = true) (hk : k s = u)
    (hu : u.clockOn t = true) : s.onClock t k = u := by
  subst hk; unfold State.onClock; rw [if_pos hc]; exact if_pos hu

/-- Where the clock of the tile has stopped, nothing happens. -/
theorem State.onClock_stopped {s : State} {t : Nat} (k : State → State) (hc : s.clockOn t = false) : s.onClock t k = s := by
  unfold State.onClock; simp [hc]

/-- An instruction of a ready thread whose effect leaves the clock running: its effect on the state with the slot taken. -/
theorem State.issue_ready (s : State) (t th : Nat) (k : State → Thread → State) (h : Ready s t th)
    (hk : (k (s.issued t th) ((s.atIssue t th).thr t th)).clockOn t = true) :
    s.issue t th k = k (s.issued t th) ((s.atIssue t th).thr t th) := by
  obtain ⟨hc, _, hr⟩ := h
  have e : ((s.issued t th).tile t).th th = (s.atIssue t th).thr t th := by rw [State.tile_issued]; rfl
  refine State.onClock_eq hc ?_ hk
  rw [← e]; exact if_pos hr

theorem State.tile_done (s : State) (t th : Nat) (x : Thread) :
    (s.done t th x).tile t = ((s.tile t).setTh th x.next.1).flipExit th (s.fc t) x.next.2 := by
  simp [State.done]

@[simp] theorem Tile.th_flipExit (y : Tile) (th fc n : Nat) (ex : List Nat) : (y.flipExit th fc ex).th n = y.th n := by
  unfold Tile.flipExit; repeat' split
  all_goals rfl

/-- What flipExit changes: the armed flip. -/
theorem Tile.flipExit_eq (y : Tile) (th fc : Nat) (ex : List Nat) :
    y.flipExit th fc ex = { y with flip := (y.flipExit th fc ex).flip } := by
  unfold Tile.flipExit; repeat' split
  all_goals rfl

@[simp] theorem Thread.next_sreg (x : Thread) (r : Nat) : x.next.1.sreg r = x.sreg r := rfl
@[simp] theorem Thread.next_cmp (x : Thread) : x.next.1.cmp = x.cmp := rfl
@[simp] theorem Thread.next_lc (x : Thread) : x.next.1.lc = x.lc := rfl
@[simp] theorem Thread.next_st (x : Thread) : x.next.1.st = x.st := rfl
@[simp] theorem Thread.next_fetch (x : Thread) : x.next.1.fetch = x.fetch := rfl

@[simp] theorem Thread.setS_cmp (x : Thread) (n : Nat) (v : W64) : (x.setS n v).cmp = x.cmp := by unfold Thread.setS; split <;> rfl
@[simp] theorem Thread.setS_lc (x : Thread) (n : Nat) (v : W64) : (x.setS n v).lc = x.lc := by unfold Thread.setS; split <;> rfl
@[simp] theorem Thread.setS_st (x : Thread) (n : Nat) (v : W64) : (x.setS n v).st = x.st := by unfold Thread.setS; split <;> rfl
@[simp] theorem Thread.setS_pc (x : Thread) (n : Nat) (v : W64) : (x.setS n v).pc = x.pc := by unfold Thread.setS; split <;> rfl
@[simp] theorem Thread.setS_loops (x : Thread) (n : Nat) (v : W64) : (x.setS n v).loops = x.loops := by
  unfold Thread.setS; split <;> rfl

theorem Thread.next_congr (x y : Thread) (hp : y.pc = x.pc) (hl : y.loops = x.loops) : AtNext x y.next.1 := by
  unfold AtNext Thread.next; simp [hp, hl]

theorem Thread.setS_writes (x : Thread) (n : Nat) (v : W64) : WritesS n v x (x.setS n v) := by
  constructor
  · rw [Thread.sreg_setS]; simp
  · intro r hr; rw [Thread.sreg_setS]; simp [hr]

/-- A thread of an issued state retires as `y`: nothing outside the thread changes but the slot and an armed flip. -/
theorem State.done_issued (s : State) (t th : Nat) (y : Thread) :
    OnlyTile t (s.atIssue t th) ((s.issued t th).done t th y) ∧
      OnlyThread th ((s.atIssue t th).tile t) (((s.issued t th).done t th y).tile t) ∧
      ((s.issued t th).done t th y).thr t th = y.next.1 := by
  have h : ∀ k, k ≠ t → ((s.issued t th).done t th y).tile k = (s.atIssue t th).tile k := by
    intro k hk; simp [State.done, State.tile_modTile, hk, State.tile_issued_other]
  refine ⟨⟨?_, h, ?_⟩, ⟨?_, ?_⟩, ?_⟩
  · conv_lhs => unfold State.done
    rw [State.issued_eq]; rfl
  · intro a; simp [State.done]
  · rw [State.tile_done, State.tile_issued, Tile.flipExit_eq]; rfl
  · intro n hn; rw [State.tile_done, State.tile_issued]; simp [Tile.th_setTh, hn]; rfl
  · unfold State.thr; rw [State.tile_done]; simp

/-- An instruction whose effect is one register write retires it. -/
theorem State.done_setS (s : State) (t th rd : Nat) (v : W64) (h : Ready s t th) :
    Retires (s.atIssue t th) ((s.issued t th).done t th (((s.atIssue t th).thr t th).setS rd v)) t th rd v := by
  obtain ⟨h1, h2, h3⟩ := State.done_issued s t th (((s.atIssue t th).thr t th).setS rd v)
  have h4 : ((((s.issued t th).done t th (((s.atIssue t th).thr t th).setS rd v)).tile t).th th) =
      (((s.atIssue t th).thr t th).setS rd v).next.1 := h3
  refine ⟨h1, h2, ?_, ?_, ?_, ?_, ?_⟩ <;> rw [h4]
  · exact Thread.setS_writes _ _ _
  · exact Thread.next_congr _ _ (by simp [State.thr]) (by simp [State.thr])
  · simp [State.thr]
  · simp [State.thr]
  · simpa [State.thr] using h.2.2

@[simp] theorem State.clockOn_done (s : State) (t th : Nat) (x : Thread) (k : Nat) : (s.done t th x).clockOn k = s.clockOn k := rfl

/-- The shared meaning of register instructions, where the thread is ready and the word legal. -/
theorem alu_retires (s : State) (t th : Nat) (w : BitVec 26) (k : Bool) (f : Thread → W64 → W64 → W64) (h : Ready s t th)
    (hw : (k || decide (bits w.toNat 10 9 = 0)) = true) :
    let x := (s.atIssue t th).thr t th
    Retires (s.atIssue t th) (alu t th w k f s) t th (fRD w) (f x (x.sreg (fRS1 w)) (x.sreg (fRS2 w))) := by
  intro x
  unfold alu
  rw [State.issue_ready _ _ _ _ h]
  · simp only [State.legal, hw, if_true]; exact State.done_setS s t th _ _ h
  · simp only [State.legal, hw, if_true]; simpa using h.2.1

/-- The shared meaning of immediate instructions, where the thread is ready and the word legal. -/
theorem imm_retires (s : State) (t th : Nat) (w : BitVec 26) (ok : Bool) (f : W64 → W64) (h : Ready s t th) (hw : ok = true) :
    Retires (s.atIssue t th) (imm t th w ok f s) t th (fRD w) (f (((s.atIssue t th).thr t th).sreg (fRS1 w))) := by
  unfold imm
  rw [State.issue_ready _ _ _ _ h]
  · simp only [State.legal, hw, if_true]; exact State.done_setS s t th _ _ h
  · simp only [State.legal, hw, if_true]; simpa using h.2.1

/-! ### Line and row checks -/

/-- A pad line's check passes iff the CRC-16 stored with it is the one computed over its bytes and number (R36, R37). -/
theorem State.lineOk_iff (s : State) (t line : Nat) :
    s.lineOk t line = true ↔ s.lineCheck t line = lineCrc (s.bytes (padAddr t (64 * line)) 64) line := by
  simp [State.lineOk, State.lineCheck]

/-- An accumulator row's check passes iff the CRC-16 stored with it is the one computed over its bytes and number (R39). -/
theorem State.rowOk_iff (s : State) (t row : Nat) :
    s.rowOk t row = true ↔ s.rowCheck t row = lineCrc (s.bytes (accAddr t row) 128) row := by
  simp [State.rowOk, State.rowCheck]

end Sys2Proof.Machine
end

