-- ==== Sys2Proof/Laws/Service.lean ====
section
/-! SUPPORT. What the shared operations of time, meters, the slow tier and the key objects can do, once each. -/
namespace Sys2Proof.Machine

/-! ### Time and domains -/

/-- Wall time does not go back: a time already reached leaves the state as it is. -/
theorem State.toWt_reached {s : State} {w : Nat} (h : w ≤ s.wt) : s.toWt w = s := by simp [State.toWt, h]

/-- The same in whole ns. -/
theorem State.toNs_reached {s : State} {n : Nat} (h : nsWt n ≤ s.wt) : s.toNs n = s := State.toWt_reached h

/-- An event of a fc that the domain does not run does not happen (R418). -/
theorem State.onDom_stopped {s : State} {d : Nat} (k : State → State) (h : s.domOn d = false) : s.onDom d k = s := by
  simp [State.onDom, h]

/-- An event of a domain happens where its clock runs before and after it. -/
theorem State.onDom_eq {s u : State} {d : Nat} {k : State → State} (h : s.domOn d = true) (hk : k s = u) (hu : u.domOn d = true) :
    s.onDom d k = u := by simp [State.onDom, h, hk, hu]

/-! ### Meter windows (R345, R346) -/

/-- A seal that falls due touches nothing but its polder's chain. -/
theorem State.sealMark_eq (s : State) (e d : Nat) : s.sealMark e d = { s with chains := (s.sealMark e d).chains } := by
  unfold State.sealMark
  dsimp only
  split <;> rfl

/-- Windows whose statements are outstanding are signed before time is asked for another. -/
theorem State.windowReady_of_cons {s : State} {w : Window} {ws : List Window} (h : s.windows = w :: ws) : s.windowReady = s := by
  simp [State.windowReady, h]

/-- A polder that is owed no statement for a window gets none. -/
theorem State.windowSign_not_owed {s : State} {d : Nat} {w : Window} (h : w ∉ s.owed d) : s.windowSign d w = s := by
  simp [State.windowSign, h]

/-- A fc that spans the end of a window is counted in it once. -/
theorem Window.span_once (w : Window) (d res act res' act' : Nat) : (w.span d res act).span d res' act' = w.span d res act := by
  unfold Window.span
  split <;> simp_all

/-! ### The slow tier (R355) -/

/-- A slow-tier request waits while the queue of UIO requests has no room for it. -/
theorem State.takeSlow_full {s : State} (hop : Nat) (k : HubReq → State → State) (h : s.uioFull = true) : s.takeSlow hop k = s := by
  simp [State.takeSlow, h]

/-- Otherwise it is taken as every request of the host hub. -/
theorem State.takeSlow_room {s : State} (hop : Nat) (k : HubReq → State → State) (h : s.uioFull = false) :
    s.takeSlow hop k = s.takeHost hop k := by simp [State.takeSlow, h]

/-! ### Key objects (R367) -/

/-- Everything that becomes of a signed object: nothing without a link, refused for its length or kind, then for its signature, then for its form,
else performed. -/
theorem State.doeSigned_cases (s : State) (obj : Bytes) (code n : Nat) (rsvd : List (Nat × Nat)) (signed : Bool) (st : Nat) (k : State → State) :
    let u := s.doeSigned obj code n rsvd signed st k
    (s.hostUp = false ∧ u = s) ∨ (s.hostUp = true ∧ (u = s.doeRefuse obj 4 ∨ (signed = false ∧ u = s.doeRefuse obj st) ∨
      (signed = true ∧ obj.length = n ∧ byteAt obj 0 = BitVec.ofNat 8 code ∧ byteAt obj 1 = 1 ∧ u = k s))) := by
  intro u
  by_cases hu : s.hostUp = true
  · refine .inr ⟨hu, ?_⟩
    by_cases hf : obj.length = n ∧ byteAt obj 0 = BitVec.ofNat 8 code
    · cases signed with
      | false => exact .inr (.inl ⟨rfl, by simp [u, State.doeSigned, hu, hf.1, hf.2]⟩)
      | true =>
        by_cases hv : (decide (byteAt obj 1 = 1) && allZero (slice obj 2 2) && rsvd.all fun r => allZero (slice obj r.1 r.2)) = true
        · exact .inr (.inr ⟨rfl, hf.1, hf.2, by simp at hv; exact hv.1.1, by simp only [u, State.doeSigned, hu, hf.1, hf.2, hv]; simp⟩)
        · exact .inl (by simp only [u, State.doeSigned, hu, hf.1, hf.2, hv]; simp)
    · refine .inl ?_
      have : (decide (obj.length ≠ n) || decide (byteAt obj 0 ≠ BitVec.ofNat 8 code)) = true := by
        simp; by_cases h : obj.length = n
        · exact .inr fun h' => hf ⟨h, h'⟩
        · exact .inl h
      simp only [u, State.doeSigned, hu, this]; simp
  · exact .inl ⟨by simpa using hu, by simp [u, State.doeSigned, hu]⟩

end Sys2Proof.Machine
end

