-- ==== Sys2Proof/Tests/Slice0.lean ====
section
/-! SUPPORT. Small tests: ill-formed commands are refused, single steps on small states give what the spec's rules give by hand, and each
hypothesis of the statements is met by a concrete state. -/
set_option Elab.async false
namespace Sys2Proof.Tests
open Sys2Proof Sys2Proof.Machine

/-! ### Ill-formed terms, one for each check -/

theorem test_registerWrite_illFormed : Instr.wellFormed (.registerWrite .mgmt 0 3 0) = false := by decide
theorem test_servicePortAccess_illFormed : Instr.wellFormed (.servicePortAccess 0 0x400000 8 none) = false := by decide
theorem test_ringAppend_illFormed : Instr.wellFormed (.ringAppend 0 []) = false := by decide
theorem test_instructionFetch_illFormed : Instr.wellFormed (.instructionFetch 0 0 2048) = false := by decide
theorem test_untimedMessage_illFormed : Instr.wellFormed (.untimedMessage ⟨0, 0, 2⟩) = false := by decide
theorem test_abortRequest_illFormed : Instr.wellFormed (.abortRequest ⟨0, 0, 2⟩) = false := by decide
theorem test_fireMessage_illFormed : Instr.wellFormed (.fireMessage 0 ⟨0, 2 ^ 48, 0⟩) = false := by decide
theorem test_monitorRequest_illFormed : Instr.wellFormed (.monitorRequest 0 18) = false := by decide
theorem test_monitorWithdraw_illFormed : Instr.wellFormed (.monitorWithdraw 0 65) = false := by decide
theorem test_avsReadback_illFormed : Instr.wellFormed (.avsReadback 0 0x10000 0 19 false) = false := by decide
theorem test_timeMessage_illFormed : Instr.wellFormed (.timeMessage 0 (2 ^ 72)) = false := by decide +kernel
theorem test_dataFlit_illFormed : Instr.wellFormed (.dataFlit 0 [] false) = false := by decide
theorem test_ctrlFlit_illFormed : Instr.wellFormed (.ctrlFlit 0 []) = false := by decide
theorem test_ctrlWidth_illFormed : Instr.wellFormed (.ctrlWidth 0 3) = false := by decide
theorem test_trainingComplete_illFormed : Instr.wellFormed (.trainingComplete 0 ⟨0, 0, 8, 0xFF, 1⟩) = false := by decide
theorem test_uioCompletion_illFormed : Instr.wellFormed (.uioCompletion 0 true (List.replicate 4097 0)) = false := by decide +kernel
theorem test_bar2Read_illFormed : Instr.wellFormed (.bar2Read ⟨0, false, 0⟩ 0) = false := by decide
theorem test_bar2Write_illFormed : Instr.wellFormed (.bar2Write ⟨0, false, 0⟩ []) = false := by decide
theorem test_mailboxWrite_illFormed : Instr.wellFormed (.mailboxWrite ⟨0, false, 0⟩ []) = false := by decide
theorem test_getCerts_illFormed : Instr.wellFormed (.getCerts []) = false := by decide
theorem test_doeAttest_illFormed : Instr.wellFormed (.doeAttest []) = false := by decide
theorem test_regTenant_illFormed : Instr.wellFormed (.regTenant []) = false := by decide
theorem test_loadKey_illFormed : Instr.wellFormed (.loadKey []) = false := by decide
theorem test_eraseKey_illFormed : Instr.wellFormed (.eraseKey []) = false := by decide
theorem test_debugToken_illFormed : Instr.wellFormed (.debugToken []) = false := by decide
theorem test_lcRequest_illFormed : Instr.wellFormed (.lcRequest []) = false := by decide
theorem test_advanceSvn_illFormed : Instr.wellFormed (.advanceSvn []) = false := by decide
theorem test_freezeReadout_illFormed : Instr.wellFormed (.freezeReadout true (.acc 0 4096)) = false := by decide
theorem test_stageRepair_illFormed : Instr.wellFormed (.stageRepair [(24, 0)]) = false := by decide
theorem test_imageWrite_illFormed : Instr.wellFormed (.imageWrite true []) = false := by decide
theorem test_faultReport_illFormed : Instr.wellFormed (.faultReport ⟨0, 0, false, false, 0, 0, 0, 0, []⟩) = false := by decide
theorem test_summary_illFormed : Instr.wellFormed (.summary ⟨0, 256, 0, 0⟩) = false := by decide
theorem test_hostLinkUp_illFormed : Instr.wellFormed (.hostLinkUp 3 1) = false := by decide

/-! ### Small states -/

/-- The state after a command, or the one before where it does not answer a next state. -/
def after (c : Instr) (s : State) : State := match exec c s with
  | .next u => u
  | _ => s
/-- The applied copy of a register set. -/
def ap (s : State) (r : Reg) (i : List Nat) (v : W64) : State := { s with applied := sput (r.reset i) s.applied (r.loc i) v }
/-- A device in service with polder 0 of tenant 7 RUNNING on region 0 in fc 100. -/
def up : State :=
  ((((ap State.reset .POLDER_CFG [0] (F.POLDER_CFG_TENANT.set (F.POLDER_CFG_RMASK.set 0 1) 7)).setFld .POLDER_STAT [0] F.POLDER_STAT_STATE 2).setFld
    .FW_STAT [] F.FW_STAT_STAGE 10).setFld .HOST_STAT [] F.HOST_STAT_WIDTH 16).setDom 0 ⟨true, 100, 0, 0, none, []⟩
/-- Tile 0 of `up` changed. -/
def tl (f : Tile → Tile) : State := up.modTile 0 f
/-- A thread in RUN at word 16 with s1 = 5, s2 = 7. -/
def run : Thread := { Thread.init with st := .run, pc := 16, s := [(1, 5), (2, 7)] }
/-- Thread 1 of tile 0 in RUN. -/
def core : State := tl fun y => (y.setTh 1 run).setReg .THR_BND [1] 0x1FFFF0000
/-- A word of format R. -/
def wR (rd rs1 rs2 fn : Nat) : BitVec 26 := BitVec.ofNat 26 (rd * 2 ^ 21 + rs1 * 2 ^ 16 + rs2 * 2 ^ 11 + fn)
/-- A word of format I. -/
def wI (rd rs1 imm : Nat) : BitVec 26 := BitVec.ofNat 26 (rd * 2 ^ 21 + rs1 * 2 ^ 16 + imm)
/-- A scalar register of thread 1 of tile 0 after an instruction. -/
def s1 (c : Instr) (r : Nat) : W64 := ((after c core).thr 0 1).sreg r


/-! ### Events of a tile -/

/-- `Due` as a Bool. -/
def isDue (due : State → Option Nat) (t : Nat) (s : State) : Bool :=
  let m := State.seek t due 65536 s
  s.clockOn t && (due s).isSome && m.clocked t && (m.dues t).any fun f => decide (f ≤ m.fc t)
theorem isDue_iff (due : State → Option Nat) (t : Nat) (s : State) : isDue due t s = true ↔ Due due t s := by
  simp [isDue, Due, and_assoc]
/-! ### The core -/

theorem witness_core_ready : Ready core 0 1 := by unfold Ready; decide +kernel
theorem witness_aluAdd : bits (wR 3 1 2 0x1FF).toNat 10 9 = 0 ∧ s1 (.aluAdd 0 1 (wR 3 1 2 0x1FF)) 3 = 12 := by decide +kernel
theorem test_aluSub : s1 (.aluSub 0 1 (wR 3 1 2 0)) 3 = BitVec.ofInt 64 (-2) := by decide +kernel
theorem test_aluMulhu : s1 (.aluMulhu 0 1 (wR 3 1 2 0)) 3 = 0 := by decide +kernel
theorem test_aluSel : s1 (.aluSel 0 1 (wR 3 1 2 0x600)) 3 = 7 := by decide +kernel
theorem test_addi : s1 (.addi 0 1 (wI 3 1 0xFFFF)) 3 = 4 := by decide +kernel
theorem witness_slli : bits (wI 3 1 0x3F).toNat 15 6 = 0 ∧ s1 (.slli 0 1 (wI 3 1 0x3F)) 3 = 0x8000000000000000 := by decide +kernel
theorem witness_insi : fRS1 (wI 2 3 0xABCD) < 4 ∧ s1 (.insi 0 1 (wI 2 3 0xABCD)) 2 = 0xABCD000000000007 := by decide +kernel
theorem witness_cmp : bits (wR 21 1 2 0).toNat 25 23 < 6 ∧ fFN (wR 21 1 2 0) = 0 ∧
    ((after (.cmp 0 1 (wR 21 1 2 0)) core).thr 0 1).cmp = 0 ∧ ((after (.cmp 0 1 (wR 17 1 2 0)) core).thr 0 1).cmp = 2 := by decide +kernel
theorem test_cmpi : ((after (.cmpi 0 1 (wI 3 1 5)) core).thr 0 1).cmp = 8 := by decide +kernel
theorem witness_br_taken : bits (wI 0 0 4).toNat 25 23 = 0 ∧ bits (wI 0 0 4).toNat 19 16 = 0 ∧
    (core.thr 0 1).cmp.getLsbD (bits (wI 0 0 4).toNat 22 21) = bit (wI 0 0 4).toNat 20 ∧
    ((after (.br 0 1 (wI 0 0 4)) core).thr 0 1).pc = 20 := by decide +kernel
theorem witness_br_untaken : bits (wI 0 16 4).toNat 25 23 = 0 ∧ bits (wI 0 16 4).toNat 19 16 = 0 ∧
    (core.thr 0 1).cmp.getLsbD (bits (wI 0 16 4).toNat 22 21) ≠ bit (wI 0 16 4).toNat 20 ∧
    ((after (.br 0 1 (wI 0 16 4)) core).thr 0 1).pc = 17 := by decide +kernel
theorem witness_jal : fRS1 (wI 3 0 0x7FFF) = 0 ∧ ((after (.jal 0 1 (wI 3 0 0x7FFF)) core).thr 0 1).pc = 15 ∧
    s1 (.jal 0 1 (wI 3 0 0x7FFF)) 3 = 17 := by decide +kernel
theorem test_jr : ((after (.jr 0 1 (wI 0 2 3)) core).thr 0 1).pc = 10 := by decide +kernel
/-- A thread at the last word of two loop bodies, the inner one at its last iteration. -/
def looper : Thread := { run with loops := [⟨1, 2, 1, 15, 16, []⟩, ⟨0, 3, 0, 10, 16, []⟩] }
theorem witness_loops_again : looper.loops = [⟨1, 2, 1, 15, 16, []⟩] ++ [⟨0, 3, 0, 10, 16, []⟩] ∧
    (∀ l ∈ [(⟨1, 2, 1, 15, 16, []⟩ : LoopRec)], l.last = looper.pc.toNat ∧ l.act ≤ l.idx + 1) ∧ looper.next.1.pc = 10 ∧
    looper.next.1.loops = [⟨0, 3, 1, 10, 16, []⟩] := by decide +kernel
theorem witness_loops_over : (∀ l ∈ [(⟨0, 3, 2, 10, 16, []⟩ : LoopRec)], l.last = (16 : BitVec 15).toNat ∧ l.act ≤ l.idx + 1) ∧
    ({ run with loops := [⟨0, 3, 2, 10, 16, []⟩] } : Thread).next.1.pc = 17 := by decide +kernel
theorem witness_ld : core.addrOk 0 1 (fADDR (core.thr 0 1) (wI 3 0 0x7FF8)) 8 = true ∧
    core.lineOk 0 (fADDR (core.thr 0 1) (wI 3 0 0x7FF8) / 64) = true ∧ (core.tile 0).claims = [] := by decide +kernel
theorem witness_store : core.addrOk 0 1 (fADDR (core.thr 0 1) (wI 1 0 0x41)) 1 = true ∧ core.lineOk 0 1 = true ∧
    (core.tile 0).liveLine 1 = false ∧ (after (.sb 0 1 (wI 1 0 0x41)) core).mem = [(65, 5)] := by decide +kernel
theorem test_st_ld : (((after (.ld 0 1 (wI 4 0 8)) ((after (.st 0 1 (wI 2 0 8)) core).modTile 0 fun y => { y with used := [] })).thr 0 1).sreg 4 = 7) ∧
    (after (.st 0 1 (wI 2 0 8)) core).bytes (padAddr 0 8) 8 = [7, 0, 0, 0, 0, 0, 0, 0] := by decide +kernel
theorem witness_fault_bounds : core.addrOk 0 1 (fADDR (core.thr 0 1) (wI 3 1 0)) 8 = false ∧
    ((after (.ld 0 1 (wI 3 1 0)) core).thr 0 1).st = .fault ∧ (core.tile 0).fld .CORE_FLT [] F.CORE_FLT_FLT = 0 ∧
    ((after (.ld 0 1 (wI 3 1 0)) core).tile 0).fld .CORE_FLT [] F.CORE_FLT_CODE = 2 := by decide +kernel
theorem witness_fault_illegal : bits (wR 3 1 2 0x200).toNat 10 9 ≠ 0 ∧ bits (wI 3 1 0x40).toNat 15 6 ≠ 0 ∧ 4 ≤ fRS1 (wI 3 4 0) ∧
    6 ≤ bits (wI 24 0 0).toNat 25 23 ∧ fRS1 (wI 0 1 0) ≠ 0 ∧ bits (wI 24 0 0).toNat 25 24 = 3 ∧ fIMM (wI 0 0 0) = 0 ∧ wI 0 0 1 ≠ 0 ∧
    ((after (.thalt 0 1 (wI 0 0 1)) core).tile 0).fld .CORE_FLT [] F.CORE_FLT_CODE = 1 := by decide +kernel

/-! ### Rings, queues, gauges, guns, threads -/

/-- A ring configuration enabled at line 0 with 64-byte entries in four lines. -/
def rc (prod cons more : Nat) : W64 := BitVec.ofNat 64 (2 ^ 63 + cons * 2 ^ 52 + prod * 2 ^ 48 + 3 * 2 ^ 36 + 4 * 2 ^ 16 + more)
/-- `core` with ring 2 so configured, its head at 3 and its tail at `tail`. -/
def ringed (c : W64) (ptr : Nat) : State := core.modTile 0 fun y => (y.setReg .RING_CFG [2] c).setReg .RING_PTR [2] (BitVec.ofNat 64 ptr)
theorem witness_rpop : let s := ringed (rc 5 5 0) (2 ^ 50 + 3); fRD (wI 0 2 0) = 0 ∧ fIMM (wI 0 2 0) = 0 ∧ Ready s 0 1 ∧
    s.ringOk 0 1 2 5 3 = true ∧ (s.tile 0).avail 2 = 1 ∧ ringGeom ((s.tile 0).ring 2) = true ∧ ((after (.rpop 0 1 (wI 0 2 0)) s).tile 0).head 2 = 0 := by
  unfold Ready; decide +kernel
theorem witness_rpush : let s := ringed (rc 5 5 0) (3 * 2 ^ 32 + 3); s.ringOk 0 1 2 5 3 = true ∧ (s.tile 0).ringFull 2 = false ∧
    ((after (.rpush 0 1 (wI 0 2 0)) s).tile 0).tail 2 = 0 := by decide +kernel
theorem witness_rpush_full : let s := ringed (rc 5 5 (2 ^ 60)) (2 ^ 50 + 3 * 2 ^ 32 + 3); s.ringOk 0 1 2 5 3 = true ∧ (s.tile 0).ringFull 2 = true ∧
    ((after (.rpush 0 1 (wI 0 2 0)) s).tile 0).tail 2 = 3 ∧ ((after (.rpush 0 1 (wI 0 2 0)) s).tile 0).fld .RING_STAT [2] F.RING_STAT_OVR = 1 := by
  decide +kernel
theorem witness_rptr : bits (wI 3 2 0).toNat 15 2 = 0 ∧ ((after (.rptr 0 1 (wI 3 2 0)) (ringed (rc 5 5 0) 3)).thr 0 1).sreg 3 = 192 := by decide +kernel
/-- `core` with a queue filled with `n` commands. -/
def filled (n : Nat) : State := core.modTile 0 fun y => { y with vxq := List.replicate n ⟨0, 0, 100⟩, sendq := List.replicate n ⟨0, 0, 100⟩ }
theorem witness_push : bits (wR 8 1 2 0).toNat 25 24 = 1 ∧ bits (wR 8 1 2 0).toNat 23 21 = 0 ∧ fFN (wR 8 1 2 0) = 0 ∧ (core.tile 0).qFull 1 = false ∧
    ((after (.push 0 1 (wR 8 1 2 0)) core).tile 0).vxq = [⟨(7 : W64) ++ (5 : W64), 1, 100⟩] := by decide +kernel
theorem witness_push_full : ((filled 32).tile 0).qFull 1 = true ∧ ((after (.push 0 1 (wR 8 1 2 0)) (filled 32)).thr 0 1).st = .stall 1 ((7 : W64) ++ (5 : W64)) 100 := by decide +kernel
/-- `core` with a gauge add for tile 3, gauge 2 in s1 and amount 9 in s2. -/
def desc (n w0 w1 : Nat) : State := (filled n).modTile 0 fun y => y.setTh 1 { run with s := [(1, BitVec.ofNat 64 w0), (2, BitVec.ofNat 64 w1)] }
theorem witness_send : let s := desc 0 (2 ^ 60 + 3 * 2 ^ 32 + 2 * 2 ^ 28) 9; descOk ((s.thr 0 1).sreg 1) ((s.thr 0 1).sreg 2) = true ∧
    (s.tile 0).qFull 3 = false ∧ ((after (.send 0 1 (wR 0 1 2 0)) s).tile 0).sendq.length = 1 ∧
    (after (.sendDrain 0) (after (.send 0 1 (wR 0 1 2 0)) s)).gadds = [⟨0, 7, 3, 2, 9, false⟩] := by decide +kernel
theorem witness_send_full : let s := desc 64 (2 ^ 60 + 3 * 2 ^ 32) 9; (s.tile 0).qFull 3 = true ∧ ((after (.send 0 1 (wR 0 1 2 0)) s).thr 0 1).st.code = 5 ∧
    ((after (.send 0 1 (wR 0 1 2 0)) s).thr 0 1).pc = 17 := by decide +kernel
theorem witness_send_hub : let s := desc 0 (3 * 2 ^ 60 + 16 * 2 ^ 32) 9; descOk ((s.thr 0 1).sreg 1) ((s.thr 0 1).sreg 2) = true ∧ s.hubRoom 16 0 = true ∧
    (sget Hub.init (after (.sendDrain 0) (after (.send 0 1 (wR 0 1 2 0)) s)).hubs 16).reqs.length = 1 := by decide +kernel
theorem witness_send_mgmt : let s := desc 0 (4 * 2 ^ 60) 9; descOk ((s.thr 0 1).sreg 1) ((s.thr 0 1).sreg 2) = true ∧
    (after (.sendDrain 0) (after (.send 0 1 (wR 0 1 2 0)) s)).mgmt.length = 1 := by decide +kernel
theorem witness_stallResume : let s := core.modTile 0 fun y => y.setTh 1 { run with st := .stall 1 9 90 };
    let due := fun z : State => State.stallNext 0 1 (z.work 0); let m := State.seek 0 due 65536 s; let n := s.atPhase due 0 20;
    s.clockOn 0 = true ∧ (s.thr 0 1).st.code = 5 ∧ m.clocked 0 = true ∧ (m.dues 0).any (fun f => decide (f ≤ m.fc 0)) = true ∧ n.clockOn 0 = true ∧
    (n.thr 0 1).st = .stall 1 9 90 ∧ (n.tile 0).qFull 1 = false ∧ (∀ k < 16, k ≠ 1 → (n.thr 0 k).st.code ≠ 5) ∧
    ((after (.stallResume 0 1) s).tile 0).vxq = [⟨9, 1, 100⟩] ∧ ((after (.stallResume 0 1) s).thr 0 1).st = .run := by decide +kernel
theorem witness_gauge_order : let cs : List GChange := [.add 15 5 false, .csr 15 3, .set 15 0xFFFFFFFF]; cs.any (GChange.on 15) = true ∧
    (Tile.init.flushGauge cs 15).fld .GAUGE [15] F.GAUGE_VALUE = 0xFFFFFFFF ∧ (Tile.init.flushGauge cs 15).fld .GAUGE [15] F.GAUGE_ERR = 1 ∧
    (Tile.init.flushGauge [.add 0 5 true, .csr 0 3] 0).gauge 0 = 0x100000008 := by decide +kernel
/-- The gauge word: gauge 4 with a threshold of 2. -/
def wG (rd rs1 imm : Nat) : BitVec 26 := wI rd rs1 imm
theorem witness_gadd : bit (wI 8 0 6).toNat 21 = false ∧ fRS1 (wI 8 0 6) = 0 ∧ ((after (.gadd 0 1 (wI 8 0 6)) core).tile 0).gpend = [.add 4 6 false] ∧
    ((after (.gset 0 1 (wI 9 2 0)) core).tile 0).gpend = [.set 4 7] := by decide +kernel
/-- `core` with gauge 4 at a value. -/
def gauged (v : Nat) : State := core.modTile 0 fun y => y.setReg .GAUGE [4] (BitVec.ofNat 64 v)
theorem witness_grd_gwait : bits (wI 3 0 0x4000).toNat 11 0 = 0 ∧ ((after (.grd 0 1 (wI 3 0 0x4000)) (gauged 6)).thr 0 1).sreg 3 = 6 ∧
    ((after (.gwait 0 1 (wI 3 0 0x4006)) (gauged 6)).thr 0 1).sreg 3 = 6 ∧
    ((after (.gwait 0 1 (wI 3 0 0x4007)) (gauged (2 ^ 32))).thr 0 1).sreg 3 = 2 ^ 63 := by decide +kernel
theorem witness_gwait_waits : ¬((5 + bits (wI 3 1 0x4002).toNat 11 0) % 2 ^ 32 ≤ ((gauged 6).tile 0 |>.gauge 4).toNat % 2 ^ 32 ∨
      ((gauged 6).tile 0 |>.gauge 4).toNat / 2 ^ 32 % 2 = 1) ∧ ((after (.gwait 0 1 (wI 3 1 0x4002)) (gauged 6)).thr 0 1).st = .wait 3 4 7 0 none 16 ∧
    ((after (.gwait 0 1 (wI 3 1 0x4002)) (gauged 6)).thr 0 1).pc = 17 := by
  decide +kernel
/-- A thread in WAIT for gauge 4 at 7, with the fc that first met it and the word then shown. -/
def waiting (met : Option (Nat × W64)) (v : Nat) : State := (gauged v).modTile 0 fun y => y.setTh 1 { run with st := .wait 3 4 7 0 met 15 }
theorem witness_gwaitWake : let s := waiting (some (99, 7)) 8; let n := s.settle 0; let m := (n.tileToFc 0 102).csrLand 0; s.clockOn 0 = true ∧
    (s.thr 0 1).st.code = 2 ∧ (n.thr 0 1).st = .wait 3 4 7 0 (some (99, 7)) 15 ∧ (n.tileToFc 0 102).clocked 0 = true ∧ m.clockOn 0 = true ∧ 102 ≤ m.fc 0 ∧
    (m.thr 0 1).st = .wait 3 4 7 0 (some (99, 7)) 15 ∧ (m.tile 0).flip = none ∧ ((after (.gwaitWake 0 1) s).thr 0 1).sreg 3 = 7 ∧
    (after (.gwaitWake 0 1) s).fc 0 = 102 := by decide +kernel
theorem witness_seeGauge : (((waiting none 8).tile 0).th 1).st = .wait 3 4 7 0 none 15 ∧
    ((((waiting none 8).tile 0).seeGauge 99 1).th 1).st = .wait 3 4 7 0 (some (99, 8)) 15 ∧
    ((((waiting none 6).tile 0).seeGauge 99 1).th 1).st = .wait 3 4 7 0 none 15 := by decide +kernel
theorem witness_gaugeTimeout : let s := (waiting none 6).modTile 0 fun y => y.setReg .GWDOG [] 1; let m := s.toWt (0 + 1 * 256000);
    (s.tile 0).fld .GWDOG [] F.GWDOG_LIMIT = 1 ∧ m.clockOn 0 = true ∧ (m.thr 0 1).st = .wait 3 4 7 0 none 15 ∧
    ((after (.gaugeTimeout 0 1) s).thr 0 1).st = .fault ∧ ((after (.gaugeTimeout 0 1) s).thr 0 1).pc = 15 ∧
    ((after (.gaugeTimeout 0 1) s).tile 0).fld .CORE_FLT [] F.CORE_FLT_CODE = 6 := by decide +kernel
theorem witness_remoteGaugeAdd : core.dikeTile 1 7 0 = true ∧ ((after (.remoteGaugeAdd ⟨1, 7, 0, 4, 9, false⟩) core).tile 0).gpend = [.add 4 9 false] ∧
    core.dikeTile 1151 7 0 = false ∧ (after (.remoteGaugeAdd ⟨1151, 7, 0, 4, 9, false⟩) core).fld .DIKE_STAT [] F.DIKE_STAT_SVC_DROP = 1 := by decide +kernel
theorem witness_reaches : Reaches .mgmt 0 core ∧ Reaches (.thread 0 1) 0 core ∧ ReachesChip .mgmt core := by
  unfold Reaches ReachesChip; decide +kernel
theorem witness_gaugeWrite : ((after (.gaugeWrite (.thread 0 1) 0 4 9) core).tile 0).gpend = [.csr 4 9] := by decide +kernel

theorem witness_garm : bits (wR 3 16 2 0).toNat 4 0 = 0 ∧ sget none ((after (.garm 0 1 (BitVec.ofNat 26 (1 * 2 ^ 20 + 4 * 2 ^ 16 + 2 * 2 ^ 11 + 2 ^ 10 + 2 ^ 5)) ) core).tile 0).arms 1 =
    some ⟨4, 7, some 5, false, 100⟩ := by decide +kernel
theorem witness_armReport : let s := (gauged 7).modTile 0 fun y => { y with arms := [(1, some ⟨4, 7, some 5, false, 100⟩)] }; s.clockOn 0 = true ∧
    (s.tile 0).gaugeMet 4 7 = true ∧ (after (.armReport 0 1) s).readies = [⟨1, 0, some 5, false⟩] ∧
    sget none ((after (.armReport 0 1) s).tile 0).arms 1 = some ⟨4, 7, some 5, true, 100⟩ := by decide +kernel
/-- A word of GAWAIT: destination 3, channel 1. -/
def wGA : BitVec 26 := BitVec.ofNat 26 (3 * 2 ^ 21 + 2 ^ 15)
theorem witness_gawait : bits wGA.toNat 14 0 = 0 ∧ ((after (.gawait 0 1 wGA) core).thr 0 1).st = .gun 1 3 100 false := by decide +kernel
/-- The pace thread in a state, in RUN at word 16. -/
def pace (x : Thread) (f : Tile → Tile) : State := tl fun y => f ((y.setTh 0 x).setReg .THR_BND [0] 0x1FFFF0000)
theorem witness_gawait_missed : let s := pace run fun y => { y with fires := [(1, some ⟨100, 9, false⟩)] }; Ready s 0 0 ∧ (100 : Nat) ≤ s.fc 0 ∧
    ((after (.gawait 0 0 wGA) s).thr 0 0).st = .fault := by unfold Ready; decide +kernel
theorem witness_gunResume_pace : let s := pace { run with st := .gun 1 3 100 false } fun y => { y with fires := [(1, some ⟨120, 9, false⟩)] };
    let m := s.tileToFc 0 120; s.clockOn 0 = true ∧ m.clockOn 0 = true ∧ (m.thr 0 0).st = .gun 1 3 100 false ∧ (m.tile 0).flip = none ∧
    ((after (.gunResume 0 0) s).thr 0 0).sreg 3 = 9 ∧ (after (.gunResume 0 0) s).fc 0 = 120 := by decide +kernel
theorem witness_gunResume_gather : let s := core.modTile 0 fun y => { y.setTh 1 { run with st := .gun 1 3 100 false } with fires := [(1, some ⟨120, 9, false⟩)] };
    (s.tileToFc 0 120).clockOn 0 = true ∧ ((s.tileToFc 0 120).thr 0 1).st = .gun 1 3 100 false ∧ ((after (.gunResume 0 1) s).thr 0 1).sreg 3 = 9 := by
  decide +kernel

theorem witness_tspawn : let w := BitVec.ofNat 26 (15 * 2 ^ 22 + 2 * 2 ^ 16 + 3 * 2 ^ 14); let u := after (.tspawn 0 1 w) core; bits w.toNat 25 22 = 15 ∧
    bits w.toNat 21 21 = 0 ∧ bits w.toNat 13 0 = 0 ∧ (core.thr 0 15).st = .halted ∧ sget none (u.tile 0).starts 15 = some 7 ∧ (u.thr 0 1).cmp = 8 ∧
    (u.thr 0 15).st = .halted ∧ ((u.nextFc 0).thr 0 15).st = .run ∧ ((u.nextFc 0).thr 0 15).pc = 7 := by decide +kernel
theorem witness_start : (Tile.init.th 2).st = .halted ∧ ((({ Tile.init with starts := [(2, some 48)] }).endFc 0 9).th 2).st = .run := by decide +kernel
theorem witness_tspawn_busy : let s := core.modTile 0 fun y => y.setTh 2 run; let w := BitVec.ofNat 26 (2 * 2 ^ 22 + 2 * 2 ^ 16); (s.thr 0 2).st ≠ .halted ∧
    ((after (.tspawn 0 1 w) s).thr 0 1).cmp = 0 := by decide +kernel
theorem witness_thalt : ((after (.thalt 0 1 0) core).thr 0 1).st = .halted ∧ ((after (.thalt 0 1 0) core).thr 0 1).pc = 17 := by decide +kernel
theorem witness_pause : bits (wI 0 0 0xFFFF).toNat 25 16 = 0 ∧ ((after (.pause 0 1 (wI 0 0 0xFFFF)) core).thr 0 1).st = .pause 65635 := by decide +kernel
theorem witness_setlc : let w := BitVec.ofNat 26 (3 * 2 ^ 24 + 9); bits w.toNat 22 21 = 0 ∧ bit w.toNat 23 = false ∧ fRS1 w = 0 ∧
    ((after (.setlc 0 1 w) core).thr 0 1).lc = [(3, 9)] := by decide +kernel
/-- A word of LOOP at level 3 over 4 words. -/
def wL : BitVec 26 := BitVec.ofNat 26 (3 * 2 ^ 24 + 4)
theorem witness_loop : let s := core.modTile 0 fun y => y.setTh 1 { run with lc := [(3, 9)], loops := [⟨1, 2, 0, 10, 20, []⟩] }; bits wL.toNat 23 15 = 0 ∧
    (∀ l ∈ (s.thr 0 1).loops, l.level ≠ 3 ∧ (s.thr 0 1).pc.toNat + 4 ≤ l.last ∧ l.last ≠ (s.thr 0 1).pc.toNat) ∧
    ((after (.loop 0 1 wL) s).thr 0 1).loops = [⟨3, 9, 0, 17, 20, []⟩, ⟨1, 2, 0, 10, 20, []⟩] := by decide +kernel
theorem witness_loop_zero : ((after (.loop 0 1 wL) core).thr 0 1).pc = 21 := by decide +kernel
theorem witness_pauseEnd : let s := core.modTile 0 fun y => y.setTh 1 { run with st := .pause 130 }; s.clockOn 0 = true ∧ (s.tileToFc 0 130).clockOn 0 = true ∧
    ((after (.pauseEnd 0 1) s).thr 0 1).st = .run ∧ (after (.pauseEnd 0 1) s).fc 0 = 130 := by decide +kernel
/-- Both code banks of one line of blocks, bank A active. -/
def banks (f : Tile → Tile) : State := pace run fun y => f ((y.setReg .CODE_A [] 1).setReg .CODE_B [] 0x10001)
/-- A word of FLIP without a level, to word 20. -/
def wF : BitVec 26 := 20
theorem witness_flip : let s := banks id; Ready s 0 0 ∧ (s.tile 0).flip = none ∧ bits wF.toNat 22 15 = 0 ∧ bit wF.toNat 25 = false ∧
    bits wF.toNat 14 0 / 16 < (s.tile 0).bankLines 1 ∧ s.lineOk 0 ((s.tile 0).bankLine 1 1) = true ∧
    ((after (.flip 0 0 wF) s).tile 0).flip.map Flip.target = some 20 := by unfold Ready; decide +kernel
theorem witness_flip_level : let s := banks fun y => y.setTh 0 { run with loops := [⟨2, 2, 0, 10, 20, []⟩] }; let w := BitVec.ofNat 26 (2 ^ 25 + 2 * 2 ^ 23 + 20);
    bits w.toNat 22 15 = 0 ∧ bit w.toNat 25 = true ∧ (∃ l ∈ (s.thr 0 0).loops, l.level = bits w.toNat 24 23) ∧
    ((after (.flip 0 0 w) s).tile 0).flip = some ⟨some 2, 20, none, 101, none⟩ := by decide +kernel
theorem witness_flipRead : let f : Flip := ⟨none, 20, none, 100, none⟩; let s := banks fun y => { y with flip := some f };
    let z := s.modTile 0 fun y => y.grab 0 7 1 false; (s.tile 0).bankLine 1 1 = 65 ∧ (s.tile 0).taken 0 = false ∧ s.lineOk 0 65 = true ∧
    ((s.flipRead 0).tile 0).flip = some { f with line := some (s.bytes (padAddr 0 (64 * 65)) 64) } ∧ (z.tile 0).taken 0 = true ∧
    ((z.flipRead 0).tile 0).flip = some { f with req := 101 } := by decide +kernel
theorem witness_flipTakeEffect : let f : Flip := ⟨some 2, 20, some [], 90, some 100⟩;
    let s := banks fun y => { (y.setTh 1 { run with st := .pause 500 }).setReg .THR_CTL [1] 48 with flip := some f }; let n := s.tileToFc 0 101;
    let m := n.csrLand 0; s.clockOn 0 = true ∧ ¬((100 : Nat) < s.fc 0) ∧ n.clocked 0 = true ∧ m.clockOn 0 = true ∧ (m.tile 0).flip = some f ∧ 100 < m.fc 0 ∧
    ((after (.flipTakeEffect 0) s).tile 0).fld .CODE_CTL [] F.CODE_CTL_ACTIVE = 1 ∧
    ((after (.flipTakeEffect 0) s).thr 0 0).pc = 20 ∧ ((after (.flipTakeEffect 0) s).thr 0 1).pc = 48 := by decide +kernel
theorem witness_flip_gun : let f : Flip := ⟨none, 20, some [], 90, none⟩;
    let s := banks fun y => { y.setTh 0 { run with st := .gun 1 3 100 false } with flip := some f, fires := [(1, some ⟨120, 9, false⟩)] };
    let m := s.tileToFc 0 120; m.clockOn 0 = true ∧ (m.tile 0).flip = some f ∧ (m.thr 0 0).st = .gun 1 3 100 false ∧
    ((after (.flipTakeEffect 0) s).thr 0 0).pc = 20 ∧ ((after (.flipTakeEffect 0) s).thr 0 0).sreg 3 = 9 := by decide +kernel
theorem witness_instructionFetch : let s := banks id; 1 < (s.tile 0).bankLines 0 ∧ s.lineOk 0 ((s.tile 0).bankLine 0 1) = true ∧
    (((after (.instructionFetch 0 0 1) s).thr 0 0).fetch.map Prod.fst) = [1] := by decide +kernel
theorem witness_thrHalt : ((after (.thrHalt .mgmt 0 1) core).thr 0 1).st = .halted ∧ (core.thr 0 2).st = .halted ∧
    sget none ((after (.thrStart (.thread 0 1) 0 2) (core.modTile 0 fun y => y.setReg .THR_CTL [2] 48)).tile 0).starts 2 = some 48 := by decide +kernel

/-! ### Registers, the pad, the towers -/

theorem witness_csrr : Reg.tileAt (fADDR (core.thr 0 1) (wI 3 0 0x1320) % 65536) = some (.GAUGE, [4]) ∧
    ((after (.csrr 0 1 (wI 3 0 0x1320)) (gauged 6)).thr 0 1).sreg 3 = 6 := by decide +kernel
theorem witness_csr_none : Reg.tileAt (fADDR (core.thr 0 1) (wI 3 0 0x7FF8) % 65536) = none ∧
    ((after (.csrr 0 1 (wI 3 0 0x7FF8)) core).tile 0).fld .PAD_ERR [] F.PAD_ERR_CFG_REJ = 1 := by decide +kernel
theorem witness_csrw : ((after (.csrw 0 1 (wI 2 0 0x450)) core).tile 0).csrw = [(101, 1, 0x450, 7)] := by decide +kernel
theorem witness_csrLand : let s := core.modTile 0 fun y => { y with csrw := [(100, 1, 0x450, 0xFFFFFFFF81000000)] };
    let z := core.modTile 0 fun y => { y with csrw := [(100, 1, 0x7FF8, 0)] }; (Reg.tileAt 0x450).map Prod.fst = some .RING_GAUGE ∧
    100 ≤ s.fc 0 ∧ ((s.csrLand 0).tile 0).reg .RING_GAUGE [2] = 0x81000000 ∧ Reg.tileAt 0x7FF8 = none ∧
    ((z.csrLand 0).tile 0).fld .PAD_ERR [] F.PAD_ERR_CFG_REJ = 1 := by decide +kernel
theorem witness_fields : F.PAD_ERR_CFG_REJ ∈ Reg.PAD_ERR.info.flds ∧ F.PAD_ERR_CFG_REJ.acc = .w1c ∧
    (∀ f ∈ Reg.GAUGE.info.flds, ¬(f.lo ≤ 63 ∧ 63 ≤ f.hi)) ∧ writeFields Reg.GAUGE.info.flds 0 (-1) = 0x1FFFFFFFF := by decide +kernel
theorem witness_registerWrite : Reg.chipAt (Reg.loc .TWR_CNT [23]) = some (.TWR_CNT, [23]) ∧ Reg.loc .TWR_CNT [23] < 0x1000000 ∧ core.frzState ≠ 3 ∧
    core.thermTrip = false ∧ (after (.registerWrite .mgmt (Reg.loc .TWR_ERR [23]) 8 0xFF) (core.setReg .TWR_ERR [23] 1)).reg .TWR_ERR [23] = 0 := by decide +kernel
theorem witness_registerWrite_others : (match bar0At 0x4000450 4 with | some (.tile 0 .RING_GAUGE [2]) => true | _ => false) = true ∧ Reaches .mgmt 0 core ∧
    ((after (.registerWrite .mgmt 0x4000450 4 0x81000000) core).tile 0).reg .RING_GAUGE [2] = 0x81000000 ∧ stgFields .METER_CFG ≠ [] ∧
    (match bar0At (Reg.loc .METER_CFG []) 4 with | some (.chip .METER_CFG []) => true | _ => false) = true ∧ core.commit = none ∧ (after (.registerWrite .mgmt (Reg.loc .METER_CFG []) 4 9) core).reg .METER_CFG [] = 9 ∧
    (after (.registerWrite .mgmt (Reg.loc .METER_CFG []) 4 9) { core with commit := some ⟨none, none⟩ }).fld .COMMIT_STAT [] F.COMMIT_STAT_CFG_REJ = 1 := by
  unfold Reaches; decide +kernel
/-- An operator session of requester 5 in mailbox 0. -/
def oper (s : State) : State := (s.setReg .SESS [0] (F.SESS_STATE.set (F.SESS_REQID.set 0 5) 2)).modMbox 0 fun m => { m with bound := true }
theorem witness_operator : let s := oper core; s.hostUp = true ∧ s.serving = true ∧ s.isOperator 5 = true ∧ bar0At 0xFFF000 4 = none ∧
    (after (.registerWrite (.host 5) 0xFFF000 4 0) s).fld .HOST_STAT [] F.HOST_STAT_UR_CNT = 1 ∧ ReachesChip (.host 5) s := by
  unfold ReachesChip; decide +kernel
theorem witness_thrBndWrite : ((after (.thrBndWrite .mgmt 0 2 0x100020001) core).tile 0).reg .THR_BND [2] = 0x100020001 ∧
    ((after (.thrBndWrite .mgmt 0 1 0) core).tile 0).fld .PAD_ERR [] F.PAD_ERR_CFG_REJ = 1 := by decide +kernel
theorem witness_codeCtlWrite : (∀ n < 16, (up.thr 0 n).st = .halted) ∧ ((after (.codeCtlWrite .mgmt 0 1) up).tile 0).fld .CODE_CTL [] F.CODE_CTL_ACTIVE = 1 ∧
    ((after (.codeCtlWrite .mgmt 0 1) core).tile 0).fld .CODE_CTL [] F.CODE_CTL_ACTIVE = 0 := by decide +kernel
theorem witness_codeBankWrite : (992 + 32 ≤ 1024 ∧ 32 ≤ 32) ∧ ((after (.codeBankWrite .mgmt 0 true (992 * 2 ^ 16 + 32)) core).tile 0).fld .CODE_B [] F.CODE_B_BASE = 992 ∧
    ((after (.codeBankWrite .mgmt 0 true (993 * 2 ^ 16 + 32)) core).tile 0).fld .PAD_ERR [] F.PAD_ERR_CFG_REJ = 1 ∧
    ((after (.codeBankWrite .mgmt 0 false (992 * 2 ^ 16 + 32)) core).tile 0).fld .PAD_ERR [] F.PAD_ERR_CFG_REJ = 1 := by decide +kernel
theorem witness_padPhaseWrite : ((after (.padPhaseWrite .mgmt 0 2) core).tile 0).fld .PAD_PHASE [] F.PAD_PHASE_PHASE = 2 ∧
    ((after (.padPhaseWrite (.thread 0 1) 0 2) core).tile 0).fld .PAD_PHASE [] F.PAD_PHASE_PHASE = 1 := by decide +kernel
theorem witness_ringCfgWrite : F.RING_CFG_EN.get ((core.tile 0).ring 2) = 0 ∧ ringGeom (rc 5 5 0) = true ∧
    ((after (.ringCfgWrite .mgmt 0 2 (rc 5 5 0)) core).tile 0).ring 2 = rc 5 5 0 ∧ ringGeom (rc 5 5 0xFFFD) = false ∧
    F.RING_CFG_EN.get (((after (.ringCfgWrite .mgmt 0 2 (rc 5 5 0xFFFD)) core).tile 0).ring 2) = 0 := by decide +kernel
theorem witness_ringCfgWrite_on : F.RING_CFG_EN.get (((ringed (rc 5 5 0) 0).tile 0).ring 2) = 1 ∧
    ((after (.ringCfgWrite .mgmt 0 2 (rc 7 7 0)) (ringed (rc 5 5 0) 0)).tile 0).ring 2 = rc 5 5 0 ∧
    F.RING_CFG_EN.get (((after (.ringCfgWrite .mgmt 0 2 0) (ringed (rc 5 5 0) 0)).tile 0).ring 2) = 0 := by decide +kernel
/-- A tenant session of tenant 7, requester 6, in mailbox 1. -/
def tens (s : State) : State := (s.setReg .SESS [1] (F.SESS_TENANT.set (F.SESS_KIND.set (F.SESS_STATE.set (F.SESS_REQID.set 0 6) 2) 1) 7)).modMbox 1 fun m => { m with bound := true }
theorem witness_ringHrel : let s := tens (ringed (rc 5 8 (2 ^ 59)) (2 ^ 50 + 3)); Reaches (.host 6) 0 s ∧ (s.tile 0).avail 2 = 1 ∧
    ((after (.ringHrel (.host 6) 0 2 1) s).tile 0).head 2 = 0 ∧ ((after (.ringHrel (.host 6) 0 2 2) s).tile 0).fld .RING_STAT [2] F.RING_STAT_UND = 1 := by
  unfold Reaches; decide +kernel
/-- `core` with the pad in LOAD. -/
def loading : State := core.modTile 0 fun y => y.setReg .PAD_PHASE [] 1
theorem witness_servicePortAccess : loading.dikeTile 1171 0 0 = true ∧ (loading.tile 0).fld .PAD_PHASE [] F.PAD_PHASE_PHASE ≠ 0 ∧ (0x3FFFF8 : Nat) % 8 = 0 ∧
    loading.lineOk 0 0xFFFF = true ∧ (loading.tile 0).liveLine 0xFFFF = false ∧
    (after (.servicePortAccess 0 0x3FFFF8 8 (some 0x1234)) loading).bytes (padAddr 0 0x3FFFF8) 2 = [0x34, 0x12] ∧
    ((after (.servicePortAccess 0 0x37FFF8 8 none) loading).tile 0).fld .PAD_ERR [] F.PAD_ERR_SVC_REJ = 1 := by decide +kernel
/-- A ring-append payload for ring 2. -/
def app : Bytes := 2 :: List.replicate 95 7
theorem witness_ringAppend : let s := ringed (rc 7 5 (2 ^ 60)) (3 * 2 ^ 32); s.appendOk 0 2 app = true ∧ (s.tile 0).ringFull 2 = false ∧
    (∀ l ∈ (s.tile 0).entryLines 2 3, (s.tile 0).liveLine l = false ∧ s.lineOk 0 l = true) ∧
    ((after (.ringAppend 0 app) s).tile 0).tail 2 = 0 ∧ (after (.ringAppend 0 app) s).byte (padAddr 0 255) = 7 := by decide +kernel
theorem witness_ringAppend_full : let s := ringed (rc 7 5 (2 ^ 60)) (2 ^ 50 + 2 ^ 32 + 1); s.appendOk 0 2 app = true ∧ (s.tile 0).ringFull 2 = true ∧
    ((after (.ringAppend 0 app) s).tile 0).fld .RING_STAT [2] F.RING_STAT_OVR = 1 ∧ core.appendOk 0 2 app = false := by decide +kernel
theorem witness_twrCfgWrite : up.polderOf 23 = none ∧ (after (.twrCfgWrite .mgmt 23 1) up).fld .TWR_CFG [23] F.TWR_CFG_PRES = 1 ∧ up.polderOf 0 ≠ none ∧
    (after (.twrCfgWrite .mgmt 0 1) up).fld .TWR_ERR [0] F.TWR_ERR_CFG_REJ = 1 := by decide +kernel
/-- `up` with the tiles of region 23 in TEST. -/
def testing : State := up.modTiles (tilesOf 23) fun y => y.setReg .PAD_PHASE [] 2
/-- An armed injection on symbol 131. -/
def inj : W64 := F.TWR_INJ_ARM.set (F.TWR_INJ_SYMA.set 0 131) 1
theorem witness_twrInjWrite : (∀ t ∈ tilesOf 23, (testing.tile t).fld .PAD_PHASE [] F.PAD_PHASE_PHASE = 2) ∧ F.TWR_INJ_SYMA.get inj = 131 ∧
    F.TWR_INJ_TWO.get inj = 0 ∧ (after (.twrInjWrite .mgmt 23 inj) testing).reg .TWR_INJ [23] = inj ∧
    (after (.twrInjWrite .mgmt 23 inj) up).fld .TWR_ERR [23] F.TWR_ERR_CFG_REJ = 1 := by decide +kernel
theorem witness_scrubLine : up.isFrozen = false ∧ up.xtalOff = false ∧ up.physLine 0 0 = some 0 ∧ sget [] up.symErr (symKey 0 0) = [] ∧
    (after (.scrubLine 0) up).fld .TWR_SCRUB [0] F.TWR_SCRUB_POS = 1 := by decide +kernel
/-- `up` with one wrong symbol in line 0 of region 0. -/
def oneWrong : State := { up with symErr := [(symKey 0 0, [4])] }
theorem witness_scrubLine_fix : let s := oneWrong.setFld .TWR_CFG [0] F.TWR_CFG_RET 0; let u := after (.scrubLine 0) s; (sget [] s.symErr (symKey 0 0)).length = 1 ∧
    s.scrubDue 0 = false ∧ s.nextPeriod.physLine 0 0 = some 0 ∧ u.fc 0 % 16 = 15 ∧ u.fld .TWR_ERR [0] F.TWR_ERR_CE = 1 ∧ (u.tower 0).wb = [(u.fc 0 + 16, 0, false)] ∧
    (after (.scrubWriteback 0) u).symErr = [] ∧ (after (.scrubWriteback 0) u).fc 0 = u.fc 0 + 16 := by decide +kernel
theorem witness_fixQueueWriteback : let s := (oneWrong.modTower 0 fun x => { x with fixq := [0] }).setFld .TWR_CFG [0] F.TWR_CFG_RET 0; s.fld .TWR_CFG [0] F.TWR_CFG_RET = 0 ∧
    s.fixLine 0 = some 0 ∧ ((s.fixRead 0).tower 0).wb = [(116, 0, true)] ∧
    (after (.fixQueueWriteback 0) s).symErr = [] ∧ ((after (.fixQueueWriteback 0) s).tower 0).fixq = [] := by decide +kernel

/-! ### The engines -/

/-- A command of thread 1 pushed in fc 90. -/
def qc (w1 w0 : Nat) : QCmd := ⟨BitVec.ofNat 64 w1 ++ BitVec.ofNat 64 w0, 1, 90⟩
/-- `core` with a tile changed. -/
def eng (f : Tile → Tile) : State := core.modTile 0 f
/-- A LOADW of an FP8 plane from line 0. -/
def qLoad : QCmd := qc (2 ^ 60 + 1 * 2 ^ 56) 0
theorem witness_loadw : let s := eng fun y => { y with mxq := [qLoad] }; let m := s.atPhase (mxeBeginDue 0 1) 0 13; isDue (mxeBeginDue 0 1) 0 s = true ∧ m.clockOn 0 = true ∧
    (m.tile 0).mxq = [qLoad] ∧ (m.tile 0).mxe.stopped = false ∧ (m.tile 0).mxe.beginFc qLoad ≤ m.fc 0 ∧ loadwLegal qLoad = true ∧
    (m.tile 0).badLine 1 (loadwLines qLoad) = none ∧ ((after (.loadw 0) s).tile 0).mxe.loads.map LoadRun.busy = [32] ∧
    ((after (.loadw 0) s).tile 0).mxe.nextBegin = m.fc 0 + 1 := by decide +kernel
theorem witness_loadRead : let l : LoadRun := ⟨qLoad, 100, loadwLines qLoad, 32, [], 0, false, none⟩; let s := eng fun y => { y with mxe := { y.mxe with loads := [l] } };
    l.lines.getD 0 0 = 0 ∧ (s.tile 0).taken 0 = false ∧ s.lineOk 0 0 = true ∧
    ((s.loadRead 0 l).tile 0).mxe.loads.map LoadRun.got = [[(100, List.replicate 64 0)]] := by decide +kernel
theorem witness_planeEnter : slice ((Plane.mk 10 0 true (List.replicate 4096 0)).enter 1 0 3 (List.replicate 64 7)).data 191 2 = [0, 7] := by decide +kernel
/-- A plane of BF16 zeros, and a STREAM of one row over it. -/
def plane16 : Plane := ⟨10, 0, true, List.replicate 4096 0⟩
/-- The STREAM. -/
def qStream : QCmd := qc (2 * 2 ^ 60 + 10 * 2 ^ 56) 0
theorem witness_stream : let s := eng fun y => { y with mxq := [qStream], mxe := { y.mxe with plane := [(0, plane16)] } };
    let m := s.atPhase (mxeBeginDue 0 2) 0 13; isDue (mxeBeginDue 0 2) 0 s = true ∧ (m.tile 0).mxe.beginFc qStream ≤ m.fc 0 ∧
    streamLegal qStream ((m.tile 0).mxe.pl 0) = true ∧ pairOk ((m.tile 0).mxe.pl 0).fmt (qStream.w1 59 56) = true ∧
    (m.tile 0).badSpan 1 (streamSpans qStream (kEff 10 0)) = none ∧ ((after (.stream 0) s).tile 0).mxe.streams.length = 1 := by decide +kernel
/-- A DRAIN of four rows. -/
def qDrain : QCmd := qc (3 * 2 ^ 60) (3 * 2 ^ 16)
theorem witness_drain : let s := eng fun y => { y with mxq := [qDrain] }; isDue (mxeBeginDue 0 3) 0 s = true ∧ qDrain.w0 63 26 = 0 ∧ qDrain.w0 15 10 = 0 ∧
    qDrain.w1 59 54 = 0 ∧ qDrain.w1 52 50 = 0 ∧ qDrain.w1 44 0 = 0 ∧ ((after (.drain 0) s).tile 0).mxe.streamFree = (after (.drain 0) s).fc 0 + 4 := by decide +kernel
/-- A running command of the MXE, begun in fc 100, `k` rows issued and finished. -/
def sr (q : QCmd) (k : Nat) : StreamRun := ⟨q, 100, k, k, 100, [], [], [], none⟩
/-- `core` with running commands and the plane of zeros. -/
def streaming (l : List StreamRun) : State := eng fun y => { y with mxe := { y.mxe with streams := l, plane := [(0, plane16)] } }
theorem witness_rowIssue_drain : let s := streaming [sr qDrain 0]; let m := s.atPhase (rowIssueDue 0) 0 15; isDue (rowIssueDue 0) 0 s = true ∧ m.clockOn 0 = true ∧
    (m.tile 0).mxe.streams.find? StreamRun.active = some (sr qDrain 0) ∧ (sr qDrain 0).issueFc 0 ≤ m.fc 0 ∧
    ((after (.mxeRowIssue 0) s).tile 0).mxe.rows.map RowRun.stage = [1] ∧ ((after (.mxeRowIssue 0) s).tile 0).fld .MXE_ROWS [] F.MXE_ROWS_ROWS = 1 := by decide +kernel
/-- A STREAM of one row whose four streams and whose lines lie in different banks. -/
def qApart : QCmd := qc (2 * 2 ^ 60 + 1 * 2 ^ 56) (10 * 2 ^ 58 + 2048 * 2 ^ 16)
theorem witness_rowIssue_stream : let s := eng fun y => { y with mxe := { y.mxe with streams := [sr qApart 0], plane := [(0, { plane16 with fmt := 1 })] } }; let m := s.atPhase (rowIssueDue 0) 0 15;
    let all := (List.range 4).flatMap fun i => (List.range (rowLines 1 (kEff 1 0))).map fun j => actLine qApart i 0 j;
    isDue (rowIssueDue 0) 0 s = true ∧ qApart.w1 52 52 = 0 ∧ isMx 1 = false ∧ pOf 1 = 1 ∧ m.clockOn 0 = true ∧
    (∀ l ∈ all, m.lineOk 0 l = true ∧ (m.tile 0).taken (l / 1024) = false) ∧ (all.map (· / 1024)).Nodup := by decide +kernel
/-- A row in flight that issued in fc `k` with all totals zero. -/
def rr (q : QCmd) (stage k : Nat) : RowRun :=
  ⟨q, k, 1023, some [], List.replicate 4 (List.replicate 32 XSum.zero), List.replicate 4 (List.replicate 128 5), stage⟩
/-- The tile with that row in flight. -/
def rowed (q : QCmd) (stage : Nat) : State := eng fun y => { y with mxe := { y.mxe with streams := [⟨q, 100, 1, 0, 100, [], [], [], none⟩], rows := [rr q stage 100] } }
theorem witness_rowWrite : let s := rowed qStream 2; let m := s.atPhase (rowWriteDue 0 false) 0 11; isDue (rowWriteDue 0 false) 0 s = true ∧
    (m.tile 0).mxe.rows = [rr qStream 2 100] ∧ m.clockOn 0 = true ∧ m.fc 0 = 113 ∧ qStream.w1 63 60 = 2 ∧ qStream.w1 53 53 = 0 ∧
    (rr qStream 2 100).sums.length = 4 ∧ (∀ x ∈ (rr qStream 2 100).sums, x.length = 32) := by decide +kernel
theorem witness_rowWrite_drain : let s := rowed qDrain 3; let n := s.engine 0 12 (rowWriteDue 0 false); let m := n.atPhase (rowWriteDue 0 true) 0 11;
    isDue (rowWriteDue 0 true) 0 n = true ∧ m.clockOn 0 = true ∧ (m.tile 0).mxe.rows.head? = some (rr qDrain 3 100) ∧ (∀ v ∈ (m.tile 0).mxe.rows.tail, v.stage ≤ 2) ∧ m.fc 0 = 114 ∧ (m.tile 0).mxe.ftrStart < 32 ∧
    ((after (.mxeRowWrite 0) s).tile 0).mxe.ftr.map List.length = [512] := by decide +kernel
theorem witness_mxeComplete_load : let q := qc (2 ^ 60 + 2 ^ 51 + 5 * 2 ^ 47) 0; let l : LoadRun := ⟨q, 50, [], 20, [], 0, false, none⟩;
    let s := eng fun y => { y with mxe := { y.mxe with loads := [l] } }; let m := s.atPhase (mxeDoneDue 0 true) 0 12;
    isDue (mxeDoneDue 0 true) 0 s = true ∧ m.clockOn 0 = true ∧ (m.tile 0).mxe.loads = [l] ∧ l.done ≤ m.fc 0 ∧ l.more = false ∧ (m.tile 0).mxe.bad = none ∧
    ((after (.mxeComplete 0 true) s).tile 0).gpend = [.add 5 1 false] ∧
    ((after (.mxeComplete 0 true) s).tile 0).fld .MXE_CNT [] F.MXE_CNT_CMD_CNT = 1 := by decide +kernel
theorem witness_mxeComplete_stream : let s := streaming [sr qStream 1]; let m := s.atPhase (mxeDoneDue 0 false) 0 12; isDue (mxeDoneDue 0 false) 0 s = true ∧
    (sr qStream 1).written = (sr qStream 1).total ∧ (sr qStream 1).done ≤ m.fc 0 ∧ m.clockOn 0 = true ∧ (m.tile 0).mxe.streams = [sr qStream 1] ∧
    (m.tile 0).mxe.bad = none ∧ ((after (.mxeComplete 0 false) s).tile 0).mxe.streams = [] := by decide +kernel

/-- A vector command of `op` with modifier `imm` and one step (bits more of word 1, word 0). -/
def vq (op imm more w0 : Nat) : QCmd := qc (op * 2 ^ 56 + more + imm) w0
/-- A tile with that command queued. -/
def vx (q : QCmd) : State := eng fun y => { y with vxq := [q] }
/-- Whether the command is due, passes the checks of its begin and leaves the queue with its row of the table. -/
def vBegins (q : QCmd) (c : Instr) : Bool :=
  let due := vxeBeginDue 0 q.vop fun i => decide (i = q.imm6)
  let s := vx q; let m := s.atPhase due 0 16; let x := m.tile 0
  isDue due 0 s && m.clockOn 0 && decide (x.vxq = [q]) && decide (x.vxe.beginFc q ≤ m.fc 0) && vLegal q && decide (x.vRingCheck q = none) &&
    decide (x.badLine 1 q.vspans = none) && decide ((((after c s).tile 0).vxe.run.map VxeRun.q) = [q])
theorem witness_vxe_begin_lanes : [vBegins (vq 1 0 0 0) (.vadd 0), vBegins (vq 2 0 0 0) (.vsub 0), vBegins (vq 3 0 0 0) (.vmul 0), vBegins (vq 4 0 0 0) (.vfma 0),
    vBegins (vq 5 0 0 0) (.vmin 0), vBegins (vq 6 0 0 0) (.vmax 0), vBegins (vq 7 0 0 0) (.vabs 0), vBegins (vq 8 0 0 0) (.vneg 0), vBegins (vq 9 0 0 0) (.vmov 0),
    vBegins (vq 10 0 0 9) (.vsplat 0), vBegins (vq 11 5 0 0) (.vcmp 0), vBegins (vq 0x10 0 0 0) (.viadd 0), vBegins (vq 0x11 0 0 0) (.vand 0),
    vBegins (vq 0x12 0 0 0) (.vor 0), vBegins (vq 0x13 0 0 0) (.vxor 0), vBegins (vq 0x14 31 0 0) (.vshl 0), vBegins (vq 0x15 31 0 0) (.vshr 0),
    vBegins (vq 0x16 0 0 0) (.viota 0), vBegins (vq 0x17 0 0 0) (.vitof 0), vBegins (vq 0x18 0 0 0) (.vftoi 0)].all id = true := by decide +kernel
theorem witness_vxe_begin_others : [vBegins (vq 0x20 0 0 0) (.padd 0), vBegins (vq 0x21 0 0 0) (.pmul 0), vBegins (vq 0x22 0 0 0) (.pfma 0), vBegins (vq 0x23 0 0 0) (.ppack 0),
    vBegins (vq 0x24 1 0 0) (.punpk 0), vBegins (vq 0x30 7 0 0) (.vtr 0), vBegins (vq 0x38 0x32 0 0) (.vred 0), vBegins (vq 0x40 0x37 0 0) (.vtopk 0),
    vBegins (vq 0x41 0 0 (256 * 2 ^ 16 + 0xFFFF)) (.vslot 0), vBegins (vq 0x42 0 0 0) (.vslotclr 0), vBegins (vq 0x43 1 0 0) (.vslotrd 0),
    vBegins (vq 0x48 1 (1 * 2 ^ 38) 0) (.vrupd 0), vBegins (vq 0x50 0 0 0) (.vdigOpen 0), vBegins (vq 0x50 1 (2 * 2 ^ 19) 0) (.vdigClose 0)].all id = true := by decide +kernel
/-- A tile that runs a vector command of one step, begun in fc 100, its v1 and v2 filled. -/
def vrun (q : QCmd) (k : Nat) : State :=
  eng fun y => { y with vxe := { y.vxe with run := [⟨q, 100, k, 100, []⟩], v := [(1, List.replicate 128 0x3F800000), (2, List.replicate 128 0x40000000)] } }
/-- A, B and D fields: v1, v2, v3. -/
def vabd : Nat := 1 * 2 ^ 33 + 2 * 2 ^ 28 + 3 * 2 ^ 14
theorem witness_vxeStep : let q := vq 1 0 vabd 0; let s := vrun q 0; let m := s.atPhase (vxeStepDue 0) 0 18; isDue (vxeStepDue 0) 0 s = true ∧
    (m.tile 0).vxe.run.find? VxeRun.more = some ⟨q, 100, 0, 100, []⟩ ∧ (⟨q, 100, 0, 100, []⟩ : VxeRun).stepFc ≤ m.fc 0 ∧
    m.clockOn 0 = true ∧ q.vak < 2 ∧ q.vdk < 2 ∧ ((m.tile 0).vxe.vec 1).length = 128 ∧ ((m.tile 0).vxe.vec 0).length = 128 ∧
    (((after (.vxeStep 0) s).tile 0).late.map Late.due) = [m.fc 0 + 8] := by decide +kernel
/-- The value of lane 127 that a step leaves for v3. -/
def lane (op imm : Nat) : Option W32 :=
  match ((after (.vxeStep 0) (vrun (vq op imm vabd 0) 0)).tile 0).late.head?.map Late.act with
  | some (.vreg _ _ v) => v[127]?
  | _ => none
theorem test_vxe_lanes : lane 1 0 = some 0x40400000 ∧ lane 2 0 = some 0xBF800000 ∧ lane 3 0 = some 0x40000000 ∧ lane 6 0 = some 0x40000000 ∧
    lane 8 0 = some 0xBF800000 ∧ lane 0x10 0 = some 0x7F800000 ∧ lane 0x13 0 = some 0x7F800000 ∧ lane 0x15 31 = some 0 := by decide +kernel
theorem witness_vector_lands : (Vxe.init.vec 3).length = 128 ∧ ((Vxe.init.setVec 3 1 (List.replicate 128 7)).vec 3).take 2 = [7, 0] ∧
    ((Vxe.init.setMask 3 1 0).mask 3).getLsbD 0 = false ∧ ((Vxe.init.setMask 0 1 0).mask 0) = BitVec.allOnes 128 := by decide +kernel
theorem witness_vxeComplete : let q := vq 1 0 (2 ^ 10 + 5 * 2 ^ 6) 0; let s := vrun q 1; let m := s.atPhase (vxeDoneDue 0) 0 19; isDue (vxeDoneDue 0) 0 s = true ∧
    m.clockOn 0 = true ∧ (m.tile 0).vxe.run = [⟨q, 100, 1, 100, []⟩] ∧ (⟨q, 100, 1, 100, []⟩ : VxeRun).more = false ∧ (m.tile 0).vxe.lost = none ∧
    ((after (.vxeComplete 0) s).tile 0).gpend = [.add 5 1 false] := by decide +kernel

/-- A tile with a transfer command queued. -/
def xf (q : QCmd) : State := (eng fun y => { y with xfq := [q] }).setReg .TWR_CFG [0] 0xF
/-- Whether the command is due, passes its checks and begins with its row of the table. -/
def xBegins (q : QCmd) (c : Instr) : Bool :=
  let due := xfeBeginDue 0 q.xop
  let s := xf q; let m := (s.atPhase due 0 0).coreFirst 0; let x := m.tile 0
  isDue due 0 s && m.clockOn 0 && decide (x.xfq = [q]) && decide (x.xfeBeginFc 0 q ≤ m.fc 0) && !x.xfe.run.any (XfeRun.next (xChan 0 q)) &&
    xLegal 0 q && decide (x.badLine 1 (xSpans q) = none) && decide (q.xop > 2 ∨ 2 * (q.w1 25 0 + q.xn) ≤ m.twrLines 0) &&
    decide ((((after c s).tile 0).xfe.run.map XfeRun.q) = [q])
theorem witness_xfe_begin : [xBegins (qc (1 * 2 ^ 60 + 0x2FFFFFF) 0) (.tread 0), xBegins (qc (2 * 2 ^ 60) 0) (.twrite 0), xBegins (qc (3 * 2 ^ 60 + 1 * 2 ^ 25) 0) (.hsend 0),
    xBegins (qc (4 * 2 ^ 60 + 1 * 2 ^ 29) 0) (.htake 0), xBegins (qc (5 * 2 ^ 60) 0) (.aread 0), xBegins (qc (6 * 2 ^ 60) 0) (.awrite 0), xBegins (qc (7 * 2 ^ 60) 0) (.icopy 0)].all id = true := by
  decide +kernel
/-- A transfer command running on a channel, `j` steps done, the next due in fc 100. -/
def xr (c : XChan) (q : QCmd) (j : Nat) : XfeRun := ⟨c, q, 100, j, 100, 100, [], []⟩
/-- A tile that runs a transfer command. -/
def xrun (c : XChan) (q : QCmd) (j : Nat) : State := eng fun y => { y with xfe := { y.xfe with run := [xr c q j] }, slots := [(1, some ⟨List.replicate 128 9, 0, false⟩)] }
theorem witness_xfeStep_aread : let q := qc (5 * 2 ^ 60) 0; let s := xrun .acc q 0; let m := s.atPhase (xfeStepDue 0 .acc) 0 7; isDue (xfeStepDue 0 .acc) 0 s = true ∧
    (m.tile 0).xfe.run.find? (XfeRun.next .acc) = some (xr .acc q 0) ∧ (xr .acc q 0).due ≤ m.fc 0 ∧ m.clockOn 0 = true ∧ XChan.acc = xChan 0 q ∧
    (m.tile 0).mxe.accReading (m.fc 0) = false ∧ (m.tile 0).taken 68 = false ∧ m.rowOk 0 0 = true ∧
    ((after (.xfeStep 0 .acc) s).tile 0).late.map Late.due = [m.fc 0 + 6] := by decide +kernel
theorem witness_xfeStep_htake : let q := qc (4 * 2 ^ 60 + 1 * 2 ^ 29) 0; let s := xrun .kE q 0; let m := s.atPhase (xfeStepDue 0 .kE) 0 1; isDue (xfeStepDue 0 .kE) 0 s = true ∧
    XChan.kE = xChan 0 q ∧ (m.tile 0).xfe.run.find? (XfeRun.next .kE) = some (xr .kE q 0) ∧ sget none (m.tile 0).slots 1 = some ⟨List.replicate 128 9, 0, false⟩ ∧
    (∀ k, k ≠ .kE → stepPhase k = 1 → (m.tile 0).xfe.run.find? (XfeRun.next k) = none) ∧
    (m.tile 0).liveLine 0 = false ∧ (m.tile 0).liveLine 1024 = false ∧ (m.tile 0).taken 0 = false ∧ (m.tile 0).taken 1 = false ∧
    (after (.xfeStep 0 .kE) s).byte (padAddr 0 65599) = 9 := by
  refine ⟨?_, ?_, ?_, ?_, ?_, ?_⟩
  case refine_5 => intro k _ _; cases k <;> first | exact absurd rfl ‹_› | decide +kernel
  all_goals decide +kernel
theorem witness_xfeComplete : let q := qc (5 * 2 ^ 60 + 2 ^ 59 + 5 * 2 ^ 55) 0; let s := xrun .acc q 1; let m := s.atPhase (xfeDoneDue 0 .acc) 0 10;
    isDue (xfeDoneDue 0 .acc) 0 s = true ∧ m.clockOn 0 = true ∧ (m.tile 0).xfeOver (m.fc 0) = [xr .acc q 1] ∧ (m.tile 0).xfe.bad = none ∧ (m.tile 0).xfe.halt = false ∧
    ((after (.xfeComplete 0 .acc) s).tile 0).gpend = [.add 5 1 false] := by decide +kernel
/-- A unit for tile 0 on its east link, due in fc 103. -/
def hop : HopFly := ⟨⟨List.replicate 128 9, 0, false⟩, 1, 0, 1, 103, false⟩
theorem witness_hopArrival : let s := { core with hops := [hop] }; let m := s.atPhase (hopDue 0 1) 0 2; isDue (hopDue 0 1) 0 s = true ∧ m.clockOn 0 = true ∧
    (m.hops.filter fun h => decide (h.tile = 0) && decide (h.due ≤ m.fc 0)) = [hop] ∧ (m.tile 0).hopShut = false ∧ m.skewed hop = false ∧
    sget none (m.tile 0).slots 1 = none ∧ sget none ((after (.hopArrival 0 .e false) s).tile 0).slots 1 = some hop.unit := by decide +kernel
/-- A unit that crosses from region 1 to tile 7 of region 0, held back by its sender's clock. -/
def hopLate (lag : Bool) : HopFly := ⟨⟨List.replicate 128 9, 7, false⟩, 8, 7, 1, 104, lag⟩
theorem witness_hopArrival_late : let s0 := { core with hops := [hopLate false] }; let s := s0.holdBack 7 1; let m := s.atPhase (hopDue 7 1) 7 2; isDue (hopDue 7 1) 7 s = true ∧
    m.skewed (hopLate true) = true ∧ (m.hops.filter fun h => decide (h.tile = 7) && decide (h.due ≤ m.fc 7)) = [hopLate true] ∧
    (after (.hopArrival 7 .e true) s0).fld .REG_CLK [0] F.REG_CLK_SKEW = 1 ∧ sget none ((after (.hopArrival 7 .e true) s0).tile 7).slots 1 = none := by decide +kernel

/-! ### The gun controller -/

/-- Channel 63 enabled over region 0 with LEAD 64 and PHASE 15, in a state, with a count. -/
def gun (st count expect more : Nat) (f : Chan → Chan) : State :=
  (((core.setReg .GUN_CHAN [63] (BitVec.ofNat 64 (2 ^ 63 + 15 * 2 ^ 56 + 64 * 2 ^ 46 + expect * 2 ^ 24 + 1 + more))).setReg .GUN_STAT [63]
    (BitVec.ofNat 64 (st * 2 ^ 61 + count * 2 ^ 48))).modChan 63 f)
theorem witness_readyReport : let s := gun 1 0 2 0 id; s.domOn (s.chDom 63) = true ∧ bit (s.chMask 63) (regionOf 0) = true ∧ s.chState 63 = 1 ∧ (0 + 1 : Nat) < 2 ∧
    (after (.readyReport ⟨63, 0, some 5, false⟩) s).fld .GUN_STAT [63] F.GUN_STAT_COUNT = 1 ∧ (after (.readyReport ⟨63, 0, some 5, true⟩) s).chState 63 = 3 := by
  decide +kernel
theorem witness_readyReport_fires : let s := gun 1 1 2 0 fun x => { x with got := [(1, some 3)] }; let w := s.reg .GUN_VCFG [63];
    (verdictOf (F.GUN_VCFG_MODE.get w) (F.GUN_VCFG_LEADT.get w) 0 ((s.chan 63).got ++ [(0, some 5)])).toOption = some 0 ∧
    ((after (.readyReport ⟨63, 0, some 5, false⟩) s).chan 63).ann.map Announce.n = some 175 ∧
    (after (.readyReport ⟨63, 0, some 5, false⟩) s).fires.length = 48 := by decide +kernel
theorem witness_readyReport_stray : (core.chState 0 = 0) ∧ (after (.readyReport ⟨0, 0, none, false⟩) core).fld .GUN_STAT [0] F.GUN_STAT_STRAY = 1 ∧
    ¬bit ((gun 1 0 2 0 id).chMask 63) (regionOf 1151) = true := by decide +kernel
theorem witness_verdicts : (offersOf [(3, some 6), (1, some 5), (7, none)]).map Prod.snd = [5, 6] ∧ (offersOf [(7, none)]).map Prod.snd = [] ∧
    (verdictOf 1 0 9 [(3, some 6), (1, some 5)]).toOption = some 7 ∧ (verdictOf 2 0 9 [(3, some 6), (1, some 5)]).toOption = some 4 ∧
    (verdictOf 3 0 9 [(3, some 6), (1, some 5)]).toOption = some 6 ∧ (verdictOf 5 3 9 [(3, some 6), (1, some 5)]).toOption = some 6 ∧
    (verdictOf 6 0 9 [(3, some 6), (1, some 5)]).toOption = none ∧ (verdictOf 6 0 9 [(3, some 5), (1, some 5)]).toOption = some 5 := by decide +kernel
theorem witness_fireMessage : core.clockOn 0 = true ∧ core.fc 0 + 1 < 102 ∧ sget none ((after (.fireMessage 0 ⟨63, 102, 9⟩) core).tile 0).fires 63 = some ⟨102, 9, false⟩ ∧
    ((after (.fireMessage 0 ⟨63, 101, 9⟩) core).tile 0).fld .SEG_FLT [] F.SEG_FLT_LATE = 1 := by decide +kernel
/-- Channel 63 ANNOUNCED for fc 175. -/
def announced : State := gun 2 0 2 0 fun x => { x with ann := some ⟨175, 9, false⟩ }
theorem witness_fireInstant : let s := announced; let m := s.toFc 0 175; s.domOn (s.chDom 63) = true ∧ m.domOn (s.chDom 63) = true ∧ s.commit = none ∧ m.commit = none ∧
    (m.chan 63).errAt = false ∧ m.fld .GUN_STAT [63] F.GUN_STAT_COUNT < m.fld .GUN_CHAN [63] F.GUN_CHAN_EXPECT ∧ m.chDom 63 = s.chDom 63 := by decide +kernel
theorem test_fireInstant : let u := after (.fireInstant 63) announced; u.chState 63 = 1 ∧ u.fld .GUN_LAST [63] F.GUN_LAST_N = 175 ∧
    ∀ t ∈ u.chTiles 63, (u.tile t).fld .SEG_STAT [] F.SEG_STAT_VALID = 1 := by decide +kernel
theorem witness_gunTimeout : let s := (gun 1 0 2 0 id).setReg .GUN_LIM [63] 1; let m := s.toWt (1 * 256000); s.fld .GUN_LIM [63] F.GUN_LIM_LIMIT = 1 ∧ s.chState 63 ≠ 0 ∧
    (s.chan 63).timed = false ∧ m.domOn (s.chDom 63) = true ∧ (after (.gunTimeout 63) s).fld .GUN_STAT [63] F.GUN_STAT_TMO = 1 ∧
    (after (.gunTimeout 63) s).fld .GUN_STAT [63] F.GUN_STAT_MISS = 0 := by decide +kernel
/-- Channel 63 that has fired at fc 80 into slot 1. -/
def shot (st more : Nat) : State :=
  ((gun st 0 2 more fun x => { x with fired := some (80, 9), rv := 9 }).setGroup ⟨1, [⟨63, 80, 9⟩], none⟩).modTile 0 fun y => { y with ckpt := [(1, some ⟨63, 80, run, []⟩)] }
theorem witness_abortRequest : let s := shot 1 (2 ^ 61); sget none (s.tile 0).ckpt 1 = some ⟨63, 80, run, []⟩ ∧ s.fld .GUN_CHAN [63] F.GUN_CHAN_UTA = 1 ∧
    (s.group (s.chMask 63)).segs.find? (fun x => decide (x.ch = 63) && decide (x.n = 80)) = some ⟨63, 80, 9⟩ ∧ (s.group (s.chMask 63)).abort = none ∧
    ((after (.abortRequest ⟨63, 0, 1⟩) s).group 1).abort = some ⟨164, 100, ⟨63, 80, 9⟩⟩ ∧ (after (.untimedMessage ⟨63, 0, 1⟩) s).abortMsgs.length = 48 := by decide +kernel
theorem witness_untimedMessage : let s := shot 1 0; s.fld .GUN_CHAN [63] F.GUN_CHAN_UTA = 0 ∧ (after (.untimedMessage ⟨63, 0, 1⟩) s).fld .GUN_STAT [63] F.GUN_STAT_UNT = 1 := by
  decide +kernel
/-- A held report of fc 100 in tile 0, in a group with a pending abort. -/
def holding : State := ((after (.abortRequest ⟨63, 0, 1⟩) (shot 1 0)).modTile 0 fun y => { y with held := [⟨⟨0, 1, false, false, 0, 0xFFFF, 1, 0, []⟩, 100⟩] })
theorem witness_abortMessage : let s := holding; s.clockOn 0 = true ∧ (s.group (s.chMask 63)).abort = some ⟨164, 100, ⟨63, 80, 9⟩⟩ ∧ bit (s.chMask 63) (regionOf 0) = true ∧
    (after (.abortMessage 0 63) s).reports.map Report.sec = [true] ∧ ((after (.abortMessage 0 63) s).tile 0).seenR0 = some 100 := by decide +kernel
theorem witness_reportMarkDeadline : let s := holding; let m := s.tileToFc 0 149; m.clockOn 0 = true ∧ (m.tile 0).held.length = 1 ∧ 149 ≤ m.fc 0 ∧
    (after (.reportMarkDeadline 0) s).reports.map Report.sec = [false] := by decide +kernel
theorem witness_abortInstant : let s := holding; let m := s.toFc 0 164; s.domOn (s.chDom 63) = true ∧ (m.group (s.chMask 63)).abort = some ⟨164, 100, ⟨63, 80, 9⟩⟩ ∧
    m.domOn (s.chDom 63) = true ∧ (after (.abortInstant 63) s).chState 63 = 4 ∧ ((after (.abortInstant 63) s).tile 0).segment = some (63, 1) := by decide +kernel
/-- Tile 0 with a checkpoint in slot 0 of channel 63, the pace thread halted. -/
def checked : State := core.modTile 0 fun y => { y.setReg .SEG_STAT [] (F.SEG_STAT_CH.set (F.SEG_STAT_CKV.set (F.SEG_STAT_VALID.set 0 1) 1) 63) with ckpt := [(0, some ⟨63, 80, run, []⟩)] }
theorem witness_restore : Reaches .mgmt 0 checked ∧ (checked.thr 0 0).st = .halted ∧ (checked.tile 0).fld .SEG_STAT [] F.SEG_STAT_CKV = 1 ∧
    ((after (.restore .mgmt 0) checked).thr 0 0).st = .gun 63 0 100 true ∧ ((after (.restore .mgmt 0) core).tile 0).fld .PAD_ERR [] F.PAD_ERR_CFG_REJ = 1 := by
  unfold Reaches; decide +kernel
/-- A configuration of channel 63 over region 0 with EXPECT 48 and LEAD 64. -/
def gcfg : W64 := BitVec.ofNat 64 (2 ^ 63 + 64 * 2 ^ 46 + 48 * 2 ^ 24 + 1)
theorem witness_gunChanWrite : core.chanOk 63 gcfg = true ∧ (after (.gunChanWrite .mgmt 63 gcfg) core).chState 63 = 1 ∧ core.chanOk 63 (gcfg + 2 ^ 24) = false ∧
    (after (.gunChanWrite .mgmt 63 (gcfg + 2 ^ 24)) core).fld .GUN_STAT [63] F.GUN_STAT_CFG_REJ = 1 ∧
    (after (.gunChanWrite .mgmt 63 (gcfg - 2 ^ 63)) core).reg .GUN_CHAN [63] = gcfg - 2 ^ 63 ∧
    (after (.gunChanWrite .mgmt 63 0) (gun 1 1 2 0 id)).chState 63 = 0 ∧ (after (.gunChanWrite .mgmt 63 0) announced).fld .GUN_STAT [63] F.GUN_STAT_CFG_REJ = 1 := by decide +kernel
theorem witness_gunRecount : let s := (gun 3 1 2 0 id).modTile 0 fun y => { y with arms := [(63, some ⟨4, 7, none, true, 90⟩)] }; s.chState 63 = 3 ∧
    (after (.gunRecount 63) s).chState 63 = 1 ∧ sget none ((after (.gunRecount 63) s).tile 0).arms 63 = some ⟨4, 7, none, false, 90⟩ ∧
    (after (.gunRecount 63) (gun 1 1 2 0 id)).fld .GUN_STAT [63] F.GUN_STAT_CFG_REJ = 1 := by decide +kernel
theorem witness_gunGo : let s := shot 4 (2 ^ 62); s.fld .GUN_CHAN [63] F.GUN_CHAN_RERUN = 1 ∧ s.fld .GUN_STAT [63] F.GUN_STAT_RETRY = 0 ∧
    ((after (.gunGo 63) s).chan 63).ann = some ⟨223, 9, true⟩ ∧ (after (.gunGo 63) (shot 4 0)).chState 63 = 5 := by decide +kernel
theorem witness_gunAbort : let s := shot 1 0; (s.chan 63).fired = some (80, 9) ∧
    (s.group (s.chMask 63)).segs.find? (fun x => decide (x.ch = 63) && decide (x.n = 80)) = some ⟨63, 80, 9⟩ ∧ s.chState 63 ∈ [1, 2, 3] ∧
    ((after (.gunAbort 63) s).group 1).abort.map Abort.a = some 164 ∧ (core.chan 63).fired = none := by decide +kernel
theorem witness_gunVcfgWrite : F.GUN_CHAN_EN.get (core.reg .GUN_CHAN [63]) = 0 ∧ (after (.gunVcfgWrite .mgmt 63 (6 * 2 ^ 45)) core).reg .GUN_VCFG [63] = 6 * 2 ^ 45 ∧
    (after (.gunVcfgWrite .mgmt 63 (7 * 2 ^ 45)) core).fld .GUN_STAT [63] F.GUN_STAT_CFG_REJ = 1 := by decide +kernel

/-! ### Clocks and time -/

/-- Polder 0 over regions 0 and 1. -/
def pair : State := ap core .POLDER_CFG [0] (F.POLDER_CFG_TENANT.set (F.POLDER_CFG_RMASK.set 0 3) 7)
theorem witness_droopStretch : pair.polderOf 0 = some 0 ∧ (after (.droopStretch 0 true) pair).waves = [(1, ⟨0, 101, true⟩)] ∧
    ((after (.droopStretch 0 true) pair).dom 0).debt = 64 := by decide +kernel
theorem witness_stretchWave : let s := after (.droopStretch 0 true) pair; let u := after (.stretchWave 1 ⟨0, 101, true⟩) s;
    (1, (⟨0, 101, true⟩ : Wave)) ∈ s.waves ∧ s.stretch.find? (fun y => decide (y.region = 1) && decide (y.fc = 102)) = none ∧
    u.stretch.map Stretch.fc = [102, 101] ∧
    (after (.stretchWave 1 ⟨0, 101, true⟩) { u with waves := [(1, ⟨0, 101, true⟩)] }).fld .REG_CLK [1] F.REG_CLK_DEFER = 1 := by decide +kernel
theorem witness_monitor : core.fld .REG_CLK [23] F.REG_CLK_FMON = 64 ∧ core.polderOf 23 = none ∧
    (after (.monitorRequest 23 19) core).fld .REG_CLK [23] F.REG_CLK_FMON = 19 ∧
    (after (.monitorWithdraw 23 64) (after (.monitorRequest 23 19) core)).fld .REG_CLK [23] F.REG_CLK_FMON = 64 := by decide +kernel
theorem witness_freqSwitch : let s := core.setDom 0 { core.dom 0 with switch := [(1024, 40)] }; (s.dom 0).switch = [(1024, 40)] ∧
    (after (.freqSwitch 0) s).fapp 0 = 40 ∧ ((after (.freqSwitch 0) s).dom 0).fc = 1024 ∧ ((after (.freqSwitch 0) s).dom 0).switch = [] := by decide +kernel
theorem witness_avsReadback : (after (.avsReadback 0 800 5 19 true) core).fld .AVS_STAT [0] F.AVS_STAT_ERR = 1 ∧
    (after (.avsReadback 2 700 5 64 false) core).fld .HALF_STAT [1] F.HALF_STAT_FCEIL = 64 ∧ (after (.avsReadback 2 700 5 19 false) core).fld .HALF_STAT [1] F.HALF_STAT_MV = 700 := by
  decide +kernel
theorem witness_avsSet : (after (.avsSet .mgmt 0 820) core).fld .AVS_SET [0] F.AVS_SET_MV = 820 ∧ (after (.avsSet .mgmt 0 821) core).fld .PWR_STAT [] F.PWR_STAT_CFG_REJ = 1 ∧
    (after (.avsSet .mgmt 1 600) core).fld .AVS_SET [1] F.AVS_SET_MV = 600 ∧ (after (.avsSet .mgmt 1 599) core).fld .PWR_STAT [] F.PWR_STAT_CFG_REJ = 1 := by decide +kernel
theorem witness_pacePulse : core.rateAdj = 0 ∧ 256000 ≤ (after .pacePulse core).wt ∧ (after .pacePulse core).wt < 256000 + 2048 := by decide +kernel
theorem witness_ppsIn : let s := core.setFld .TB_STAT [] F.TB_STAT_SRCA 2; core.fld .TB_CTL [] F.TB_CTL_SRC ≤ 1 ∧ (after .ppsIn s).tbSrc = 1 ∧
    (after .ppsIn s).fld .TB_STAT [] F.TB_STAT_SRCA = 1 ∧ (after .ppsIn core).fld .TB_STAT [] F.TB_STAT_SRCA = 0 ∧
    1 < (core.setReg .TB_CTL [] 0x300).fld .TB_CTL [] F.TB_CTL_SRC := by decide +kernel
/-- No polder runs; TB_SET is ahead. -/
def still : State := (up.setFld .POLDER_STAT [0] F.POLDER_STAT_STATE 0).setReg .TB_SET [] 5
theorem witness_tbStep : (∀ d < 8, still.polderState d ≠ 2) ∧ still.wt < 5 * 256 ∧ (after (.tbStep .mgmt) still).wt = 1280 ∧
    (after (.tbStep .mgmt) core).fld .TB_STAT [] F.TB_STAT_STEPREJ = 1 := by decide +kernel
theorem witness_holdover : core.fld .TB_CTL [] F.TB_CTL_SRC = 0 ∧ (after .timebaseHoldover core).tbSrc = 3 := by decide +kernel
/-- Port 15 UP on path 0 to peer 9. -/
def linked : State :=
  ((ap core .PATH_CFG [0] (F.PATH_CFG_PEER.set (F.PATH_CFG_EN.set (F.PATH_CFG_PORTS.set 0 0x8000) 1) 9)).setReg .PORT_STAT [15]
    (F.PORT_STAT_PEERID.set (F.PORT_STAT_STATE.set 0 2) 9)).setReg .PORT_CFG [15] (F.PORT_CFG_EN.set 0 1)
theorem witness_timebaseExchange : (linked.usable 0)[1 % (linked.usable 0).length]? = some 15 ∧ linked.fld .TB_CTL [] F.TB_CTL_UPATH = 0 ∧
    (after .timebaseExchange linked).timeReq = some (0, 15, 0) ∧ (sget [] ((after .timebaseExchange linked).lport 15).own 1).length = 1 := by decide +kernel
/-- A message arriving on a port: type in bits 63 to 60 of word 0. -/
def rx (w0 w1 : Nat) (buf : Bytes) : RxMsg := ⟨BitVec.ofNat 64 w0, BitVec.ofNat 64 w1, 7, 5, buf, [false], true, false, 0, 0, none, false, false, 0, false, none⟩
/-- A port of `linked` with that message at the front of a class. -/
def arriving (c : Nat) (m : RxMsg) : State := linked.modPort 15 fun p => { p with rx := [(c, [m])] }
theorem witness_timeMessage : let m := rx (7 * 2 ^ 60) 0 ([1, 0, 0, 0, 9] ++ List.replicate 26 0 ++ [1]); let s := arriving 1 m; sget [] (s.lport 15).rx 1 = [m] ∧
    leNat (slice m.buf 4 9) = 9 ∧ byteAt m.buf 31 = 1 ∧ (sget [] ((after (.timeMessage 15 77) s).lport 15).own 1).length = 1 := by decide +kernel

/-! ### Links -/

/-- Port 15 of `linked` changed. -/
def pt (f : LPort → LPort) : State := linked.modPort 15 f
/-- Port 15 in another state. -/
def pst (n : Nat) (f : LPort → LPort) : State := (pt f).setPortState 15 n
/-- A flit of class 2. -/
def fl : Flit := ⟨2, 0, true, true, false, 7, 5, List.replicate 16 0, none⟩
theorem witness_flitSlot_ctrl : let s := pt fun x => { x with ctrl := true }; s.portState 15 = 2 ∧ (s.lport 15).ctrl = true ∧
    ((after (.flitSlot 15) s).lport 15).ctrl = false ∧ (after (.flitSlot 15) s).out.length = 1 := by decide +kernel
theorem witness_flitSlot_resend : let s := pt fun x => { x with buf := [(0, [fl, fl])], togo := [(0, 2)] }; (s.lport 15).cmd = none ∧ (s.lport 15).rplDue = [] ∧
    sget 0 (s.lport 15).togo 2 = 0 ∧ (sget [] (s.lport 15).buf 0)[2 - sget 0 (s.lport 15).togo 0]? = some fl ∧ (s.lport 15).rpl < 8192 ∧
    sget 0 ((after (.flitSlot 15) s).lport 15).togo 0 = 1 ∧ (after (.flitSlot 15) s).fld .PORT_CNT [15] F.PORT_CNT_RPL_TOT = 1 := by decide +kernel
theorem witness_flitSlot_idle : linked.portState 15 = 2 ∧ (∀ c < 7, (linked.sendData 15 c).isNone = true) ∧ (after (.flitSlot 15) linked).out.length = 1 := by decide +kernel
/-- A number evaluated before it is used. -/
def strict {α : Type} (n : Nat) (k : Nat → α) : α := match n with | 0 => k 0 | m + 1 => k (m + 1)
theorem strict_eq {α : Type} (n : Nat) (k : Nat → α) : strict n k = k n := by cases n <;> rfl
/-- The CRC-32C of a flit, byte by byte. -/
def crcBy : Bytes → Nat → Nat
  | [], c => c
  | b :: bs, c => strict (crc32cStep (BitVec.ofNat 32 c) b).toNat (crcBy bs)
theorem crcBy_eq (b : Bytes) : ∀ c : W32, BitVec.ofNat 32 (crcBy b c.toNat) = b.foldl crc32cStep c := by
  induction b with
  | nil => intro c; simp [crcBy]
  | cons x xs ih => intro c; simp only [crcBy, strict_eq, List.foldl_cons, BitVec.ofNat_toNat, BitVec.setWidth_eq]; exact ih _
theorem crc32c_by (b : Bytes) : crc32c b = ~~~ BitVec.ofNat 32 (crcBy b 0xFFFFFFFF) := by
  rw [crc32c, ← crcBy_eq b 0xFFFFFFFF]; rfl
/-- A flit of a header, the first bytes of its payload and a CRC. -/
def flit (h : Nat) (pay : Bytes) (crc : Nat) : Bytes := natLe 12 h ++ padTo pay 240 ++ natLe 4 crc
/-- A DATA flit of one message of 16 bytes in class 2, with SEQ. -/
def dataRaw (seq crc : Nat) : Bytes := flit (2 ^ 92 + 2 * 2 ^ 89 + seq * 2 ^ 77 + 2 ^ 76 + 2 ^ 75 + 15 * 2 ^ 65 + 7 * 2 ^ 49 + 5 * 2 ^ 37) [] crc
/-- A CTRL flit that asks for a replay of C0 and returns 16 units of class 0. -/
def ctrlRaw : Bytes := flit (2 * 2 ^ 92) (List.replicate 6 0 ++ [2, 0, 0, 0, 0x10]) 0x4223645b
theorem witness_dataFlit : flitGood (dataRaw 0 0x9a82757d) 1 = true ∧ flitGood (dataRaw 4095 0xa3d88f5) 1 = true ∧ flitGood ctrlRaw 2 = true := by
  unfold flitGood; rw [crc32c_by, crc32c_by, crc32c_by]; decide +kernel
theorem witness_dataFlit_seq : linked.carries 15 = true ∧ linked.portState 15 ≠ 5 ∧ sget 0 (linked.lport 15).exp (spaceOf (bits (leNat (slice (dataRaw 0 0) 0 12)) 91 89)) = 0 ∧
    bits (leNat (slice (dataRaw 0 0) 0 12)) 88 77 = 0 ∧ (bits (leNat (slice (dataRaw 4095 0) 0 12)) 88 77 + 4096 - 0) % 4096 = 4095 := by decide +kernel
theorem witness_dataFlit_bad : flitGood [] 1 = false ∧ (after (.dataFlit 15 [] true) linked).fld .PORT_ERR [15] F.PORT_ERR_CRC = 1 := by decide +kernel
theorem witness_ctrlFlit : leNat (slice ctrlRaw 19 1) = 0 ∧ bit (leNat (slice ctrlRaw 18 1)) 1 = true ∧ leNat (slice ctrlRaw 22 2) = 16 := by decide +kernel
theorem witness_ackTimer : let s := pt fun x => { x with ackAt := some 0 }; s.portRuns 15 = true ∧ ((after (.ackTimer 15) s).lport 15).ctrl = true ∧ 51200 ≤ (after (.ackTimer 15) s).wt := by
  decide +kernel
theorem witness_replayTimeout : let s := pt fun x => { x with timer := [(0, some 0)], buf := [(0, [fl])] }; sget none (s.lport 15).timer (spaceNo .main) = some 0 ∧
    sget 0 ((after (.replayTimeout 15 .main) s).lport 15).togo 0 = 1 := by decide +kernel
theorem witness_arqRepeat : let s := pt fun x => { x with arqAt := some 0, buf := [(0, List.replicate 1024 fl)] }; (s.lport 15).arqAt = some 0 ∧ s.portRuns 15 = true ∧
    1024 ≤ (sget [] (s.lport 15).buf 0).length ∧ ((after (.arqRepeat 15) s).lport 15).arqAt = none := by decide +kernel
theorem witness_windowEnd : let s := pt fun x => { x with rpl := 1025, crce := 3 }; s.portRuns 15 = true ∧ (after (.windowEnd 15) s).fld .PORT_STAT [15] F.PORT_STAT_DEG = 1 ∧
    (after (.windowEnd 15) s).fld .PORT_WIN [15] F.PORT_WIN_CRCE = 3 := by decide +kernel
theorem witness_ctrlDown : linked.carries 15 = true ∧ (after (.ctrlDown 15) linked).portState 15 = 4 ∧
    (after (.portCtlDown .mgmt 15) (pt fun x => { x with downs := [0, 0, 0] })).portState 15 = 6 ∧ (pst 1 id).portState 15 = 1 := by decide +kernel
theorem witness_ctrlRetrain : (after (.ctrlRetrain 15) linked).portState 15 = 3 ∧ ((after (.portCtlRetrain .mgmt 15) linked).lport 15).cmd = some (2, 0) ∧
    ((after (.ctrlWidth 15 4) linked).lport 15).wantLanes = some 4 := by decide +kernel
theorem witness_drainComplete : let s := pst 3 id; s.portState 15 = 3 ∧ (s.lport 15).drained = true ∧ (after (.drainComplete 15) s).portState 15 = 1 := by decide +kernel
theorem witness_retrainAttempt : let s := pst 4 fun x => { x with cmdTill := 500 }; s.portState 15 = 4 ∧ (after (.retrainAttempt 15 false) s).portState 15 = 1 ∧
    500 ≤ (after (.retrainAttempt 15 false) s).wt ∧ ((after (.fastRetrainFail 15) (pst 1 id)).lport 15).full = true := by decide +kernel
theorem witness_trainingComplete : let s := pst 1 id; s.portState 15 = 1 ∧ (s.lport 15).rx = [] ∧ (after (.trainingComplete 15 ⟨9, 77, 8, 0xFF, 2⟩) s).portState 15 = 2 ∧
    (after (.trainingComplete 15 ⟨9, 77, 8, 0xFF, 2⟩) s).reg .PORT_PEER [15] = 77 ∧ sget 0 ((after (.trainingComplete 15 ⟨9, 77, 8, 0xFF, 2⟩) s).lport 15).cred 8 = 6144 := by decide +kernel
theorem witness_pick : let s := pst 1 id; let i : TrainInfo := ⟨9, 77, 8, 0xFF, 2⟩; (s.lport 15).wantLanes = none ∧
    (s.lport 15).pick i (min (min (lanesOf (s.app .PORT_CFG [15] F.PORT_CFG_WIDTH)) i.peerLanes) 8) = some (8, 0) := by decide +kernel
theorem witness_attemptTimeout : let s := (pst 1 fun x => { x with attempt := some 0 }).setFld .PORT_STAT [15] F.PORT_STAT_FAILS 2; (s.lport 15).attempt = some 0 ∧
    (after (.attemptTimeout 15) s).portState 15 = 6 ∧ (after (.attemptTimeout 15) s).fld .PORT_STAT [15] F.PORT_STAT_FAILS = 3 := by decide +kernel
theorem witness_holdFlit : let s := after (.holdFlit 15 1 false) linked; linked.portRuns 15 = true ∧ s.portState 15 = 5 ∧ (s.lport 15).held = some (2, 0) ∧ s.isFrozen = false ∧
    (after (.idleFlit 15) s).portState 15 = 2 := by decide +kernel
/-- A message in a path's queue. -/
def qm (op cls : Nat) (cr : Bool) (d : Bytes) : Msg := ⟨cls, BitVec.ofNat 64 (op * 2 ^ 60), 0, d, false, cr, 0, 0, none, 7, some 0⟩
theorem witness_graceExpiry : let s := linked.modPath 0 fun x => { x with q := [(2, [qm 1 2 true []])], left := 0, since := some 0 }; (s.lpath 0).since = some 0 ∧
    (after (.graceExpiry 0) s).fld .PATH_STAT [0] F.PATH_STAT_STATE = 3 ∧ (after (.graceExpiry 0) s).fld .PATH_STAT [0] F.PATH_STAT_FLUSH_CNT = 1 := by decide +kernel

/-! ### Hubs -/

/-- Path 0 over ports 0 and 15 for polder 0, both UP to peer 9. -/
def lk : State :=
  (ap linked .PATH_CFG [0] (F.PATH_CFG_PEER.set (F.PATH_CFG_EN.set (F.PATH_CFG_PORTS.set (F.PATH_CFG_POLDERS.set 0 1) 0x8001) 1) 9)).setReg .PORT_STAT [0]
    (F.PORT_STAT_PEERID.set (F.PORT_STAT_STATE.set 0 2) 9)
/-- A free slot of line 0 of tile 0, and the read of eight lines that a hub makes in free slots. -/
theorem witness_slotFree : SlotFree lk 0 0 ∧ (match lk.freeLoad 0 0 512 6 8 with | .ok b _ => decide (b = lk.bytes (padAddr 0 0) 512) | _ => false) = true ∧
    (match lk.recordGet 0 0 with | .ok b _ => decide (b.length = 16) | _ => false) = true := by
  refine ⟨?_, by decide +kernel⟩; unfold SlotFree; decide +kernel
/-- A request of tile 0: hub operation, class, entry; words as in Table 10-7. -/
def hr (hop cls e w0 w1 : Nat) : HubReq := ⟨0, some 0, 7, BitVec.ofNat 64 (hop * 2 ^ 24 + cls * 2 ^ 16 + e * 2 ^ 10 + w0), BitVec.ofNat 64 w1⟩
/-- Hub 0 of a state with requests. -/
def hub (s : State) (q : HubReq) (f : Hub → Hub) : State := s.modHub 0 fun b => f { b with reqs := [q] }
/-- The messages a path holds of a class after a command. -/
def queued (c : Instr) (s : State) (cls : Nat) : List Nat := (sget [] ((after c s).lpath 0).q cls).map fun m => m.w0.toNat / 2 ^ 60
theorem witness_sring : let q := hr 1 3 63 0 0; let s := hub lk q id; s.isFrozen = false ∧ (s.hub 0).reqs = [q] ∧ s.reqOk 0 q = true ∧ s.fld .PATH_STAT [0] F.PATH_STAT_STATE ≠ 3 ∧
    s.lineOk (attached 0 0) 0 = true ∧ (s.txDecl 0 3).en = false ∧ queued (.sring 0) s 3 = [1] := by decide +kernel
theorem witness_hub_data : queued (.ssluice 0) (hub lk (hr 2 4 5 0 0) id) 4 = [2] ∧ queued (.sslot 0) (hub lk (hr 3 6 5 0 0) id) 6 = [3] ∧
    queued (.rgaddRequest 0) (hub lk (hr 4 2 5 0 (1151 * 2 ^ 8)) id) 2 = [4] ∧ lk.reqOk 0 (hr 4 2 5 0 (1151 * 2 ^ 8)) = true := by decide +kernel
theorem witness_hub_refused : let q := fun n => hr n 7 0 0 0; (∀ n < 12, lk.reqOk 0 (q n) = false) ∧
    (after (.sring 0) (hub lk (q 1) id)).fld .HUB_CNT [0] F.HUB_CNT_BADREQ_CNT = 1 ∧ (after (.tset 0) (hub lk (q 6) id)).fld .HUB_CNT [0] F.HUB_CNT_BADREQ_CNT = 1 ∧
    (after (.bclose 0) (hub lk (q 10) id)).fld .HUB_CNT [0] F.HUB_CNT_BADREQ_CNT = 1 := by decide +kernel
/-- An entry of polder 0 at attached tile 0. -/
def ent (v : Nat) : Option Entry := some ⟨0, BitVec.ofNat 128 v, 0, []⟩
theorem witness_grantRequest : let q := hr 5 2 63 0 (9 * 2 ^ 24); let s := hub lk q fun b => { b with ent := [(63, ent 0)] }; s.reqOk 0 q = true ∧ s.entry 0 0 63 = ent 0 ∧
    queued (.grantRequest 0) s 2 = [5] ∧ ((after (.grantRequest 0) s).entry 0 0 63).map Entry.gout = some 10 := by decide +kernel
/-- Key slot 255 bound to polder 0 for tenant 7, key 3, and loaded. -/
def keyed : State :=
  ((ap lk .KEY_BIND [255] (F.KEY_BIND_EN.set (F.KEY_BIND_POLDERS.set (F.KEY_BIND_TENANT.set (F.KEY_BIND_KEYID.set 0 3) 7) 1) 1)).setFld .KEY_STAT [255]
    F.KEY_STAT_LOADED 1).setBytes (padAddr 0 6) [7, 0, 3, 0]
theorem witness_bopen : let q := hr 8 2 5 0 15; let s := hub keyed q id; let b := s.bytes (padAddr 0 0) 512; s.reqOk 0 q = true ∧ (s.sendCtx 0 15).isNone = true ∧
    (∀ i < 8, s.lineOk 0 i = true) ∧ hdrF b 6 2 = s.tenant 0 ∧ s.boundKey 0 7 3 = some 255 ∧ queued (.bopen 0) s 2 = [8] ∧ ((after (.bopen 0) s).sendCtx 0 15).isSome = true := by
  decide +kernel
/-- A send context of one line in hub 0. -/
def sctx (sent : Nat) : SendCtx := ⟨List.replicate 28 0 ++ [1], 255, List.replicate 32 0, 0, 0, 5, sent, [], some 0⟩
theorem witness_bdataRequest : let q := hr 9 2 5 0 15; let s := hub lk q fun b => { b with send := [(15, some (sctx 0))] }; s.reqOk 0 q = true ∧
    s.sendCtx 0 15 = some (sctx 0) ∧ queued (.bdataRequest 0) s 2 = [9] := by decide +kernel
theorem witness_bclose : let q := hr 10 2 5 0 (2 ^ 8 + 15); let s := hub lk q fun b => { b with send := [(15, some (sctx 0))] }; s.reqOk 0 q = true ∧ bit q.aux 0 = true ∧
    queued (.bclose 0) s 2 = [11] ∧ bit (hr 10 2 5 0 15).aux 0 = false ∧ (sctx 1).sent = hdrLen (sctx 1).hdr ∧ lk.reqOk 0 (hr 10 2 5 0 15) = true := by decide +kernel
/-- Hub 0's ring 2 at tile 0: an edge ring of the hubs. -/
def hring (s : State) (more : Nat) : State := s.modTile 0 fun y => y.setReg .RING_CFG [2] (rc 6 5 (2 ^ 60 + more))
theorem witness_tset : let q := hr 6 2 5 0 0; let s := hub ((hring lk 0).setBytes (padAddr 0 0) [0x10]) q id; let v := leNat (s.bytes (padAddr 0 0) 16); s.reqOk 0 q = true ∧
    (s.entry 0 0 5).isNone = true ∧ s.recordOk 0 0 0 v = true ∧ ((after (.tset 0) s).entry 0 0 5).isSome = true ∧ lk.recordOk 0 0 0 v = false := by decide +kernel
theorem witness_tclr : let q := hr 7 2 5 0 0; let s := hub lk q fun b => { b with ent := [(5, ent 0x10)] }; s.reqOk 0 q = true ∧ s.entry 0 0 5 = ent 0x10 ∧
    ((after (.tclr 0) s).entry 0 0 5).isNone = true ∧ (after (.tclr 0) (hub lk q id)).fld .HUB_CNT [0] F.HUB_CNT_BADREQ_CNT = 1 := by decide +kernel
theorem witness_sringSend : let m := qm 1 3 true (List.replicate 64 0); let s := { lk.modPath 0 fun x => { x with q := [(3, [m])] } with credits := [(0, 1)] }; s.landLines 0 m = 1 ∧
    sget 0 s.credits (creditKey 0 0) = 1 ∧ (after (.sringSend 0 3) s).credits = [] ∧ (sget [] ((after (.sringSend 0 3) s).lpath 0).q 3).map Msg.credit = [false] := by decide +kernel
/-- Port 0 of `lk` with a message at the front of class 3 and entries in its hub. -/
def arr (m : RxMsg) (s : State) (es : SMap (Option Entry)) : State := (s.modPort 0 fun p => { p with rx := [(3, [m])] }).modHub 0 fun b => { b with ent := es }
/-- A message of an operation for entry 63 with so many lines. -/
def im (op lines w0 : Nat) : RxMsg := rx (op * 2 ^ 60 + 63 * 2 ^ 54 + w0) (lines * 64 * 2 ^ 40) (List.replicate (64 * lines) 9)
theorem witness_arrival : let m := im 1 1 0; let s := arr m lk []; s.isFrozen = false ∧ sget [] (s.lport 0).rx 3 = [m] ∧ m.fail = none ∧ m.begun = false ∧ m.eom = true ∧
    m.mute = false ∧ m.buf.length = m.nbytes ∧ m.declared = none ∧ ((List.range 6).any fun a => s.tagOk m.tenant (attached 0 a)) = true ∧ m.op = 1 ∧
    (s.entry 0 0 m.entry).isNone = true ∧ sget [] ((after (.ringMessage 0 3) s).lport 0).cmpls 3 = [(5, 2, 0)] := by decide +kernel
theorem witness_ringMessage : let m := im 1 1 0; let s := arr m (ap (hring lk 0) .PEERTAB [0, 0] (F.PEERTAB_V.set (F.PEERTAB_PEERID.set 0 9) 1)) [(63, some ⟨0, 0x10, 4, []⟩)];
    (s.ringStart 0 m).1 = none ∧ (State.landRing 0 2 (m.linesNow none).1 0 false (0, 0) (s.ringStart 0 m).2).1 = false ∧ 0 + 0 + 1 ≤ ringN ((s.tile 0).ring 2) ∧ sget [] ((after (.ringMessage 0 3) s).lport 0).cmpls 3 = [(5, 0, 1)] ∧
    ((after (.ringMessage 0 3) s).tile 0).tail 2 = 1 ∧ (after (.ringMessage 0 3) s).byte (padAddr 0 63) = 9 := by decide +kernel
/-- A sluice of lines 0 to 3 for peers 9 to 9. -/
def slu : Option Entry := ent (3 * 2 ^ 32 + 9 * 2 ^ 48 + 9 * 2 ^ 64)
theorem witness_sluiceMessage : let m := im 2 1 (3 * 2 ^ 22); let s := arr m (lk.modTile 0 fun y => y.setTh 1 Thread.init) [(127, slu)]; s.entry 0 1 63 = slu ∧ (s.sluiceStart 0 m).1 = none ∧
    (s.tile 0).allHalted = true ∧ s.tagOk 7 0 = true ∧ (after (.sluiceMessage 0 3) s).byte (padAddr 0 255) = 9 ∧
    (after (.sluiceMessage 0 3) (arr (im 2 1 (4 * 2 ^ 22)) lk [(127, slu)])).fld .HUB_CNT [0] F.HUB_CNT_SLV_CNT = 1 := by decide +kernel
/-- A slot entry: ring 2, one slot, blocks of one entry, four regions. -/
def slot (more : Nat) (f : List Fill) : Option Entry := some ⟨0, BitVec.ofNat 128 (0x10 + 1 * 2 ^ 16 + 4 * 2 ^ 32 + 9 * 2 ^ 48 + 9 * 2 ^ 64 + more), 0, f⟩
theorem witness_slotMessage : let m := im 3 1 0; let s := arr m (hring lk 0) [(191, slot 0 [])]; (s.slotStart 0 m).1 = none ∧
    sget [] ((after (.slotMessage 0 3) s).lport 0).cmpls 3 = [(5, 0, 1)] ∧ ((after (.slotMessage 0 3) s).tile 0).tail 2 = 1 ∧
    sget [] ((after (.slotMessage 0 3) (arr m lk [])).lport 0).cmpls 3 = [(5, 2, 0)] := by decide +kernel
theorem witness_rgadd_grant : let m := rx (4 * 2 ^ 60 + 15 * 2 ^ 46 + 8 * 2 ^ 6) 0 []; let s := arr m lk []; m.aux % 2048 = 0 ∧ s.tagOk 7 0 = true ∧
    (after (.rgaddMessage 0 3) s).gadds = [⟨1152, 7, 0, 15, 8, false⟩] ∧ s.pathOf 0 = some 0 ∧
    (after (.grantMessage 0 3) (arr (rx (5 * 2 ^ 60 + 63 * 2 ^ 54 + 9 * 2 ^ 6) 0 []) lk [])).credits = [(63, 10)] := by decide +kernel
theorem witness_cmpl : let m := rx (6 * 2 ^ 60) (16 * 2 ^ 40) (natLe 16 (5 * 2 ^ 52 + 2 * 2 ^ 44)); let e := (5, { qm 1 3 false [] with cg := some 15 });
    let s := (arr m lk []).modPort 0 fun p => { p with wait := [e] }; m.buf.length = 16 ∧ bits (leNat (slice m.buf 0 8)) 63 52 = 5 ∧ s.dikeTile 1152 7 0 = true ∧
    ((after (.cmpl 0 3) s).tile 0).gpend = [.add 15 1 true] ∧ ((after (.cmpl 0 3) s).lport 0).wait.length = 0 := by decide +kernel
/-- Ring 3 of tile 0: an edge ring of the hubs of 8-byte entries. -/
def oring (s : State) : State := s.modTile 0 fun y => y.setReg .RING_CFG [3] (BitVec.ofNat 64 (2 ^ 63 + 2 ^ 60 + 5 * 2 ^ 52 + 6 * 2 ^ 48 + 4 * 2 ^ 16 + 64))
theorem witness_orderRingResume : let f : Fill := ⟨0, 0, [(0, 4)], [0]⟩; let s := arr (im 3 1 0) (oring (hring lk 0)) [(191, slot (2 ^ 45 + 3 * 2 ^ 40) [f])]; let x := ((s.entry 0 2 63).getD ⟨0, 0, 0, []⟩); let y := s.tile 0;
    x.fill = [f] ∧ x.atTail y 2 = (0, 0) ∧ x.blockLen = 1 ∧ y.tail 2 + 1 < ringN (y.ring 2) ∧ bit x.desc.toNat 45 = true ∧ y.ringFull 3 = false ∧
    ((after (.orderRingResume 0 63) s).tile 0).tail 2 = 1 ∧ ((after (.orderRingResume 0 63) s).tile 0).tail 3 = 1 := by decide +kernel

/-! ### Batons and the codec -/

/-- A port of path 0 with a baton message for receive entry 63, and a receive context 15 of that entry. -/
def bat (m : RxMsg) (r : Option RecvCtx) : State :=
  (arr m (ap (lk.modTile 0 fun y => y.setReg .RING_CFG [0] (rc 6 5 (2 ^ 60 + 64))) .PEERTAB [0, 0] (F.PEERTAB_V.set (F.PEERTAB_PEERID.set 0 9) 1)) [(255, ent (9 * 2 ^ 32 + 9 * 2 ^ 16 + 0x10))]).modHub 0 fun b => { b with recv := [(15, r)] }
/-- A receive context of a baton of one line. -/
def rctx (ct : Bytes) (st : List Bytes) (v : Bool) : RecvCtx := ⟨63, 0, some 0, List.replicate 28 0 ++ [1], 255, List.replicate 32 0, ct, [], [], 0, st, 0, 0, v⟩
/-- A baton message of an operation with so many bytes. -/
def bm (op n : Nat) : RxMsg := rx (op * 2 ^ 60 + 63 * 2 ^ 54) (n * 2 ^ 40) (List.replicate n 9)
/-- The receive entry of `bat`. -/
def bent : Entry := ((bat (bm 8 512) none).entry 0 3 63).getD ⟨0, 0, 0, []⟩
theorem witness_bhdr : let m := bm 8 512; let s := bat m none; sget [] (s.lport 0).rx 3 = [m] ∧ m.buf.length = m.nbytes ∧ ((List.range 6).any fun a => s.tagOk m.tenant (attached 0 a)) = true ∧
    s.entry 0 3 m.entry = some bent ∧ s.tagOk m.tenant (attached 0 (bent.f 2 0)) = true ∧ bent.f 31 16 ≤ s.peerId 0 ∧ s.peerId 0 ≤ bent.f 47 32 ∧ (s.hub 0).info = [] ∧
    s.infoRoom 0 bent = true ∧ bent.polder < 8 ∧ s.fld .BAT_STAT [0] F.BAT_STAT_REJ = 0 ∧ (after (.bhdr 0 3) s).fld .BAT_STAT [0] F.BAT_STAT_CAUSE = 1 ∧
    sget [] ((after (.bhdr 0 3) s).lport 0).cmpls 3 = [(5, 9, 0)] := by
  decide +kernel
theorem witness_bhdr_slot : SlotFree (bat (bm 8 512) none) (attached 0 (bent.f 2 0)) (((bat (bm 8 512) none).tile (attached 0 (bent.f 2 0))).tailLine (bent.f 12 8)) := by
  unfold SlotFree; decide +kernel
theorem witness_bdataMessage : let r := rctx [] [] false; let m := bm 9 64; let s := bat m (some r); s.recvOf 0 m.entry = some (15, r) ∧ (r.feed m.buf 0 66).2 = (64, none) ∧
    sget [] ((after (.bdataMessage 0 3) s).lport 0).cmpls 3 = [(5, 0, 1)] := by decide +kernel
theorem witness_bdataMessage_rejected : let r := rctx (List.replicate 64 0) [] false; let m := bm 9 64; let s := bat m (some r); (r.feed m.buf 0 66).2.2 = some 8 ∧
    ((after (.bdataMessage 0 3) s).recv 0 15).isNone = true ∧ (after (.bdataMessage 0 3) s).fld .BAT_STAT [0] F.BAT_STAT_REJ = 1 := by decide +kernel
theorem witness_bend : let s := bat (bm 10 16) (some (rctx [] [] false)); ((after (.bend 0 3) s).recv 0 15).isNone = true ∧ (after (.bend 0 3) s).fld .BAT_STAT [0] F.BAT_STAT_CAUSE = 8 := by
  decide +kernel
theorem witness_babort : let s := bat (bm 11 0) (some (rctx [] [] false)); ((after (.babort 0 3) s).recv 0 15).isNone = true ∧ sget [] ((after (.babort 0 3) s).lport 0).cmpls 3 = [(5, 9, 0)] := by
  decide +kernel
theorem witness_batonContextTimeout : let r := rctx [] [] false; let s := (bat (bm 11 0) (some r)).modPort 0 fun p => { p with rx := [] }; s.recv 0 15 = some r ∧ s.ctxHeld r = false ∧
    s.ctxFed r = false ∧ (s.toWt (r.last + 10000000 * 256)).recv 0 15 = some r ∧ ((after (.batonContextTimeout 0 15) s).recv 0 15).isNone = true := by decide +kernel
theorem witness_chunkDeliver : let b := List.replicate 64 3; let r := rctx [] [b] false; let s := hring (bat (bm 11 0) (some r)) 0; let y := s.tile 0; (s.hub 0).info = [] ∧ b.length = ringEsz (y.ring 2) ∧
    y.hubRing 2 = true ∧ y.ringFull 2 = false ∧ ((after (.chunkDeliver 0 15) s).tile 0).tail 2 = 1 ∧
    ((after (.chunkDeliver 0 15) (hring (bat (bm 11 0) (some (rctx [] [] true))) 0)).recv 0 15).isNone = true := by decide +kernel
theorem witness_packed : fin32 0x3f800000 = true ∧ mag32 0x3f800000 ≤ ueUnits ((levelsOf 4 [0x3f800000, 0x40000000]).getD 3 0) * levelUnit (sharedExp [0x3f800000, 0x40000000]) := by decide +kernel

/-! ### Slow tier -/

/-- The host hub of `up` with one request and entries; window 0 of 16 lines; regions 0 and 3 for polder 0. -/
def slow (q : HubReq) (es : SMap (Option Entry)) : State :=
  (((ap (ap up .SLOW_LIM [0] 16) .POLDER_CFG [0] (F.POLDER_CFG_TENANT.set (F.POLDER_CFG_RMASK.set 0 0x9) 7)).setFld .UIO_TGT [0] F.UIO_TGT_EN 1).setFld .EP_SH [0, 0] F.EP_SH_STATE 1).modHub
    16 fun b => { b with reqs := [q], ent := es }
/-- A request of tile 0 for lines of tile 0 at an offset of the window. -/
def sq (hop line nl off : Nat) : HubReq := ⟨0, some 0, 7, BitVec.ofNat 64 (hop * 2 ^ 24), BitVec.ofNat 64 (line * 2 ^ 37 + nl * 2 ^ 33 + off)⟩
theorem witness_sread : let q := sq 1 65535 0 15; let s := slow q []; s.isFrozen = false ∧ q.hrsvd = true ∧ q.offset = 15 ∧ s.slowTile q = true ∧ s.slowIn 0 15 1 = true ∧ s.slowWay 0 = true ∧
    (after .sread s).uio.length = 1 ∧ (after .sread (slow (sq 1 65535 0 16) [])).fld .SLOW_CNT [0] F.SLOW_CNT_BADREQ_CNT = 1 := by decide +kernel
theorem witness_swrite : let q := sq 2 0 1 14; let s := slow q []; s.slowTile q = true ∧ s.slowIn 0 14 2 = true ∧ s.lineOk 0 0 = true ∧ s.lineOk 0 1 = true ∧ (after .swrite s).uio.length = 1 ∧
    (after .swrite (slow (sq 2 65535 1 0) [])).fld .SLOW_CNT [0] F.SLOW_CNT_BADREQ_CNT = 1 := by decide +kernel
theorem witness_bfetch : let s := slow (sq 11 0 0 8) []; s.slowIn 0 8 8 = true ∧ (after .bfetch s).uio.length = 2 ∧ s.slowIn 0 9 8 = false := by decide +kernel
theorem witness_host_tset : let q := sq 6 0 0 63; let s := ((slow q []).setBytes (padAddr 0 0) [0x10, 3]).modTile 432 fun y => (y.setReg .RING_CFG [2] (rc 6 5 (2 ^ 60 + 6 * 2 ^ 36))).setReg .RING_CFG [3] (rc 6 5 (2 ^ 60));
    q.offh = 0 ∧ s.tilePolder 0 = some 0 ∧ s.lineOk 0 0 = true ∧ (s.entry 16 3 63).isNone = true ∧ (s.hub 16).recvEntries = 0 ∧ s.recordOk 16 3 0 0x310 = true ∧
    ((after (.tset 16) s).entry 16 3 63).isSome = true ∧ (slow q [(255, ent 0)]).entry 16 3 63 = ent 0 := by decide +kernel
theorem witness_host_tclr : let s := slow (sq 7 0 0 63) [(255, ent 0)]; s.entry 16 3 63 = ent 0 ∧ ((after (.tclr 16) s).entry 16 3 63).isNone = true := by decide +kernel
/-- A part of a transfer of one line, and the job of a read that it ends. -/
def upart (at_ : Option Nat) : UioPart := ⟨3, 2, false, 0, none, 0, 64, 0, [], at_⟩
def sjob : SlowJob := ⟨2, sq 1 65535 0 15, 0, 0, 1, false, 64, 0, [], 0, none⟩
theorem witness_uioIssue : let s := { up with slow := [sjob], uio := [upart none] }; (∀ j ∈ s.slow, j.kind ≠ 2) ∧ s.uio.find? (fun y => y.at_.isNone) = some (upart none) ∧
    (after .uioIssue s).out.length = 1 ∧ (after .uioIssue s).fld .UIO_STAT [] F.UIO_STAT_OUT = 1 := by decide +kernel
theorem witness_uioCompletion : let s := { up with slow := [sjob], uio := [upart (some 0)] }; s.uio.find? (fun y => decide (y.id = 3) && y.at_.isSome) = some (upart (some 0)) ∧
    s.slow.find? (fun j => decide (j.id = 2)) = some sjob ∧ (after (.uioCompletion 3 true [5]) s).slow = [] ∧ (after (.uioCompletion 3 true [5]) s).byte (padAddr 0 0x3FFFC0) = 5 ∧
    (s.toWt (100000 * 256)).slow = [sjob] ∧ (after (.uioTimeout 3) s).fld .UIO_STAT [] F.UIO_STAT_TMO_CNT = 1 := by decide +kernel

/-! ### Epochs and heat -/

/-- Epoch slot 3 of polder 0 in a state, on the admission chip or not. -/
def epo (st adm : Nat) : State := ((core.setFld .EP_SH [0, 3] F.EP_SH_STATE st).setReg .EP_CFG [0] (F.EP_CFG_ADM.set 0 adm)).setReg .EP_ID [0, 3] 4
theorem witness_epochOpen : (epo 0 0).epState 0 3 = 0 ∧ (∀ k < 4, k ≠ 3 → (epo 0 0).epState 0 k = 0) ∧ (after (.epochOpen 0 3) (epo 0 0)).epState 0 3 = 2 ∧
    (after (.epochOpen 0 3) ((epo 0 0).setFld .EP_SH [0, 3] F.EP_SH_NBAT 4096)).epState 0 3 = 1 ∧ (after (.epochOpen 0 3) (epo 1 0)).fld .EP_CFG [0] F.EP_CFG_REJ = 1 := by decide +kernel
theorem witness_epochSwitch : sget [] (after (.epochSwitch 0 3 0) (epo 2 1)).admSwitch 0 = [3] ∧ (after (.epochSwitch 0 3 0) (epo 2 0)).epState 0 3 = 3 ∧
    (after (.epochSwitch 0 3 0) (epo 1 0)).fld .EP_CFG [0] F.EP_CFG_REJ = 1 := by decide +kernel
theorem witness_admissionSwitch : let s := { epo 2 1 with admSwitch := [(0, [3])] }; let m := { s with admSwitch := sput [] s.admSwitch 0 [] }.nextFc 0; s.domOn 0 = true ∧ s.epState 0 3 = 2 ∧
    m.domOn 0 = true ∧ m.epState 0 3 = 2 ∧ (after (.admissionSwitch 0) s).epState 0 3 = 3 := by decide +kernel
theorem witness_epochAbandon : (after (.epochAbandon 0 3) (epo 1 0)).epState 0 3 = 0 ∧ (after (.epochAbandon 0 3) (epo 3 0)).fld .EP_CFG [0] F.EP_CFG_REJ = 1 := by decide +kernel
theorem witness_epAdmit : csrOff ((epo 3 1).thr 0 1) (wI 3 0 0x7000) = Reg.loc .EP_ADMIT [] ∧ Ready (epo 3 1) 0 1 ∧ (epo 3 1).tilePolder 0 = some 0 ∧
    (List.range 4).find? (fun k => decide ((epo 3 1).epState 0 k = 3)) = some 3 ∧ (after (.epAdmit 0 1 (wI 3 0 0x7000)) (epo 3 1)).fld .EP_STAT [0] F.EP_STAT_NEXT_B = 1 ∧
    (∀ k < 4, (epo 2 1).epState 0 k ≠ 3) := by unfold Ready; decide +kernel
theorem witness_epDone : (core.tilePolder 0) = some 0 ∧ (after (.epDone 0 0x7FFFFFFF) core).fld .EP_STAT [0] F.EP_STAT_DONE_B = 0x7FFFFFFF ∧ (after (.epDone 0 0x80000000) core).regs = core.regs := by
  decide +kernel
/-- Sketch 63 for table 5 of polder 0. -/
def heat : State := up.setReg .HEAT_TBL [63] (F.HEAT_TBL_TABLE.set (F.HEAT_TBL_EN.set 0 1) 5)
theorem witness_heatIn : let v : W64 := 5 * 2 ^ 56 + 2 ^ 36 - 1; heat.sketchOf 0 (F.HEAT_IN_TABLE.get v) = some 63 ∧ (after (.heatIn 0 v) heat).fld .HEAT_CNT [] F.HEAT_CNT_IN_CNT = 1 ∧
    ((after (.heatIn 0 v) heat).sketch 63).est (2 ^ 36 - 1) = 1 ∧ (after (.heatIn 0 0) heat).fld .HEAT_CNT [] F.HEAT_CNT_DROP_CNT = 1 := by decide +kernel
theorem witness_heatTblWrite : (after (.heatTblWrite .mgmt 63 (2 ^ 63)) heat).fld .EP_CFG [0] F.EP_CFG_REJ = 1 ∧ (after (.heatTblWrite .mgmt 63 0) heat).fld .HEAT_TBL [63] F.HEAT_TBL_EN = 0 := by
  decide +kernel
theorem witness_heatCtl : let s := after (.heatIn 0 (2 ^ 63 + 5 * 2 ^ 56)) (heat.setReg .HEAT_SEL [] (63 * 256)); let v : W64 := 63 * 256; (sget none (s.sketch 63).cand 0) = some (0, 1) ∧
    ((after (.heatTake .mgmt v) s).sketch 63).cand = [] ∧ ((after (.heatClear .mgmt v) s).sketch 63).cnt = [] ∧ ((after (.heatHalve .mgmt v) s).sketch 63).est 0 = 0 ∧
    (after (.heatQry .mgmt (63 * 2 ^ 36)) s).fld .HEAT_EST [] F.HEAT_EST_EST = 1 := by decide +kernel
/-- A message of polder 0 in the management core's queue. -/
def mm (w0 w1 : Nat) : State := { up with mgmt := [⟨0, some 0, 7, BitVec.ofNat 64 w0, BitVec.ofNat 64 w1⟩] }
theorem witness_updatePoint : (mm (2 ^ 20) 0).frzState ≠ 3 ∧ (after .updatePoint (mm (2 ^ 20) 0)).reg .RCPT_UPD [0] = 1 ∧
    (after .updatePoint (mm (2 ^ 20) 1)).fld .MGMT_STAT [] F.MGMT_STAT_BADMSG_CNT = 1 := by decide +kernel
theorem witness_orderDone : let y : Reload := ⟨0, 9, [63], 0, 0, 0⟩; let s := ({ mm (2 ^ 21) 9 with reloads := [y] }.setFld .GUN_CHAN [63] F.GUN_CHAN_RERUN 1).setChState 63 4;
    s.chState 63 = 4 ∧ s.reloads.find? (fun x => decide (x.polder = 0) && decide (x.order = 9)) = some y ∧ (after .orderDone s).chState 63 = 2 ∧
    ((after .orderDone (mm (2 ^ 21 + 3) 8)).retier 0).reported = 1 := by decide +kernel
theorem witness_suspect : 1151 ∈ (after .suspect (mm (3 * 2 ^ 20 + 1151) 0)).testMarks := by decide +kernel
theorem witness_retierPass : let s := up.modRetier 0 fun r => { r with count := 1, todo := 1 }; (∀ k < 64, s.fld .HEAT_TBL [k] F.HEAT_TBL_EN = 0) ∧ ((after (.retierPass 0) s).retier 0).todo = 0 := by
  decide +kernel

/-! ### Receipts, seals, meters -/

/-- A receipt record for one line in and one out of tile 0, epoch 4; a receipt request for it at line 9 with other words. -/
def rrec (nin ext : Nat) : Bytes := natLe 8 (4 * 2 ^ 32 + 77) ++ [BitVec.ofNat 8 nin, 1] ++ List.replicate 6 0 ++ natLe 24 ext ++ natLe 24 0
def rq (w1 : Nat) : HubReq := ⟨0, some 0, 7, BitVec.ofNat 64 (12 * 2 ^ 24), BitVec.ofNat 64 (9 * 2 ^ 37 + w1)⟩
/-- `up` with that request, that record, receipts enabled, slot 3 in a state with epoch 4, and ring 2 of tile 0 as receipt ring. -/
def rcp (q : HubReq) (b : Bytes) (st en : Nat) : State :=
  ((((hring up (2 * 2 ^ 36 + 3 * 2 ^ 52 + 2 ^ 59)).setFld .EP_SH [0, 3] F.EP_SH_STATE st).setReg .EP_ID [0, 3] 4).setReg .RCPT_CFG [0] (F.RCPT_CFG_RING.set (F.RCPT_CFG_EN.set 0 en) 2)).setBytes
    (padAddr 0 576) b |>.modHub 16 fun h => { h with reqs := [q] }
theorem witness_receipt : let q := rq 0; let s := rcp q (rrec 1 0) 3 1; let b := s.bytes (padAddr 0 576) 64; (s.hub 16).reqs.find? (fun q => decide (q.hop = 12)) = some q ∧ s.tilePolder 0 = some 0 ∧
    s.lineOk 0 9 = true ∧ q.offh = 0 ∧ q.nl = 0 ∧ q.offl = 0 ∧ q.hrsvd = true ∧ rcptRecOk b = true ∧ rcptExtents b false ++ rcptExtents b true = [(1, 0, 0), (1, 0, 0)] ∧ s.lineOk 0 0 = true ∧
    (List.range 4).find? (fun k => decide (s.epState 0 k ≠ 0) && decide (s.fld .EP_ID [0, k] F.EP_ID_EPOCH = hdrF b 4 4)) = some 3 ∧ s.polderState 0 = 2 ∧
    (after .receipt s).rcptJobs.length = 1 := by decide +kernel
theorem witness_receipt_refused : (after .receipt (rcp (rq 1) (rrec 1 0) 3 1)).fld .RCPT_STAT [0] F.RCPT_STAT_CAUSE = 1 ∧
    (after .receipt (rcp (rq (8 * 2 ^ 53)) (rrec 1 0) 3 1)).fld .RCPT_STAT [0] F.RCPT_STAT_CAUSE = 2 ∧ (after .receipt (rcp (rq 0) (rrec 1 8) 3 1)).fld .RCPT_STAT [0] F.RCPT_STAT_CAUSE = 2 ∧
    (after .receipt (rcp (rq 0) (rrec 1 0) 0 1)).fld .RCPT_STAT [0] F.RCPT_STAT_CAUSE = 3 ∧ (after .receipt (rcp (rq 0) (rrec 1 0) 3 0)).fld .RCPT_STAT [0] F.RCPT_STAT_CAUSE = 4 := by decide +kernel
theorem witness_receipt_reads : let s := rcp (rq 0) (rrec 1 0) 3 1; (State.readExtents [(1, 0, 0)] s []).1.isSome = true ∧
    (match s.freeLoad 0 576 64 8 1 with | .ok b _ => decide (b = s.bytes (padAddr 0 576) 64) | _ => false) = true := by decide +kernel
/-- A receipt in work, and a state where it is formed. -/
def rjob : RcptJob := ⟨rq 0, 0, 77, 4, [], [], [], 0⟩
def rform : State := { rcp (rq 0) [] 3 1 with rcptJobs := [rjob] }
theorem witness_receiptForm : rform.rcptRing 0 = some (0, 2) ∧ rform.rcptRoom 0 = true ∧ (rform.tile 0).tail 2 < ringN ((rform.tile 0).ring 2) ∧
    rform.rcptJobs.find? (fun j => rform.rcptFirst j && rform.rcptRoom j.polder) = some rjob ∧ (rform.chain 0).due = [] := by decide +kernel
theorem witness_rcptPut : let s := rform.setDom 0 ⟨false, 0, 0, 0, none, []⟩; s.rcptRing 0 = some (0, 2) ∧ s.rcptRoom 0 = true ∧ s.clocked 0 = false ∧
    (s.tile 0).tail 2 < ringN ((s.tile 0).ring 2) := by decide +kernel
theorem witness_seal : let s := { rform with rcptJobs := [] }.setChain 0 { rform.chain 0 with due := [(60, 0)] }; s.rcptRoom 0 = true ∧ (s.chain 0).due = [(60, 0)] := by decide +kernel
theorem witness_closeWindow : (let s := rform; s.fld .RCPT_CFG [0] F.RCPT_CFG_EN = 1 ∧ s.polderState 0 = 2 ∧ s.lc ≠ 3 ∧ (s.chain 0).start < nsWt s.windowEnd) := by decide +kernel
theorem witness_rcptCfgWrite : (after (.rcptCfgWrite .mgmt 7 5) up).fld .RCPT_CFG [7] F.RCPT_CFG_RING = 5 ∧ (after (.rcptCfgWrite .mgmt 0 5) up).fld .RCPT_STAT [0] F.RCPT_STAT_CFG_REJ = 1 := by
  decide +kernel
theorem witness_powerMonitorSample : (after (.powerMonitorSample [(0, 5)] 24) up).reg .MTR [0, 2] = 6 ∧ sget 0 up.energySub 0 < 1152 ∧ up.polderState 0 ≠ 3 ∧
    ((after (.powerMonitorSample [(0, 5)] 24) (up.setFld .POLDER_STAT [0] F.POLDER_STAT_STATE 3)).reg .MTR [0, 2]) = 0 := by decide +kernel
theorem witness_idleMeter : (after (.powerMonitorSample [(0, 5)] 24) (up.setFld .POLDER_STAT [0] F.POLDER_STAT_STATE 3)).reg .METER_IDLE [] = 29 := by decide +kernel
theorem witness_meterStatement : (let s := { up.setMeter 0 (some ⟨0, [], true⟩) with windows := [⟨60, 60, [[7]], [1], []⟩] }; let u := after .meterStatement { s with fuses := { s.fuses with lc := 3 } };
    s.lc ≠ 3 ∧ s.meter 0 = some ⟨0, [], true⟩ ∧ u.meter 0 = some ⟨nsWt 60, [7], false⟩ ∧ u.windows = [] ∧ u.retained = []) := by decide +kernel
/-- A window that ends in a tick takes in the fc in progress (the photo-finish rule of R345). -/
theorem test_windowEnds : (let a := { (up.setDom 0 ⟨true, 5, 0, 0, none, []⟩) with windowEnd := 0 }.pass 1; let b := a.pass 8;
    (a.windows.map fun w => (w.ends, w.spans, (w.meters.getD 0 []).take 1)) = [(0, [0], [0])] ∧ a.windowEnd = 60000000000 ∧
    (b.windows.map fun w => (w.spans, (w.meters.getD 0 []).take 1)) = [([], [48])]) := by decide +kernel
theorem witness_hourlyPersist : up.terern = true ∧ up.ceCases = [] := by decide +kernel

/-! ### Polders and commits -/

theorem witness_polderStart : let s := up.setFld .POLDER_STAT [0] F.POLDER_STAT_STATE 1; s.polderState 0 = 1 ∧ sget none s.quarAt 0 = none ∧ (after (.polderKill 0) s).quarAt = [(0, some 164)] ∧
    (after (.polderFinish 0) up).quarAt = [(0, some 164)] := by decide +kernel
theorem witness_polder_rejected : (after (.polderStart 0) up).fld .POLDER_STAT [0] F.POLDER_STAT_CFG_REJ = 1 ∧ (after (.polderKill 7) up).fld .POLDER_STAT [7] F.POLDER_STAT_CFG_REJ = 1 ∧
    (after (.polderFinish 7) up).fld .POLDER_STAT [7] F.POLDER_STAT_CFG_REJ = 1 := by decide +kernel
theorem witness_quarantineInstant : let s := { core with quarAt := [(0, some 100)] }; sget none s.quarAt 0 = some 100 ∧ 100 ≤ (s.dom 0).fc ∧ s.domOn 0 = true ∧
    (after (.quarantineInstant 0) s).polderState 0 = 3 ∧ ((after (.quarantineInstant 0) s).thr 0 1).st = .halted := by decide +kernel
/-- A polder in wipe. -/
def wiping (b : Option Nat) : State := { up with wipes := [(0, some ⟨0, 0, [], [], 1, 7, b⟩)] }
theorem witness_wipeStart : (wiping none).domOn 0 = true ∧ sget none (after (.wipeStart 0) (wiping none)).wipes 0 = some ⟨0, 0, [], [], 1, 7, some 100⟩ := by decide +kernel
theorem witness_wipeComplete : let s := (wiping (some 100)).setDom 0 ⟨true, 100 + 2 ^ 20, 0, 0, none, []⟩; sget none s.wipes 0 = some ⟨0, 0, [], [], 1, 7, some 100⟩ ∧ 100 + 2 ^ 20 ≤ (s.dom 0).fc ∧
    s.domOn 0 = true := by decide +kernel
/-- The state at reset with a commit instant. -/
def com (at_ : Nat) (c : Option Commit) : State := { State.reset.setReg .COMMIT_AT [] (BitVec.ofNat 64 at_) with commit := c }
theorem witness_commitGo : (com 100000 none).ns + 100000 = 100000 ∧ (com 100000 none).commitCheck none = none ∧ (after (.commitGo 0) (com 100000 none)).commit = some ⟨none, none⟩ ∧
    (after (.commitGo 0) (com 99999 none)).fld .COMMIT_STAT [] F.COMMIT_STAT_CODE = 1 := by decide +kernel
theorem witness_commitGo_rejected : ((com 100000 none).setReg .METER_CFG [] 3601).commitCheck none = some (12, 0) ∧ (com 0 none).commitCheck (some 63) = some (1, 63) ∧
    (after (.commitGo 0) (com 100000 (some ⟨none, none⟩))).fld .COMMIT_STAT [] F.COMMIT_STAT_CFG_REJ = 1 := by decide +kernel
theorem witness_commitAbort : (after .commitAbort (com 100000 (some ⟨none, none⟩))).commit = none := by decide +kernel
theorem witness_commitApply : let s := com 0 (some ⟨none, none⟩); s.frzState = 0 ∧ nsWt (s.reg .COMMIT_AT []).toNat ≤ s.wt ∧ s.commitCheck none = none ∧ (s.setReg .METER_CFG [] 0).commitCheck none = some (12, 0) := by
  decide +kernel
theorem witness_commitApply_gun : let s := com 0 (some ⟨some 63, none⟩); s.frzState = 0 ∧ s.check1 (some 63) = some 63 ∧ (after .commitApply s).commit = none := by decide +kernel

/-! ### Host port -/

/-- An operator session in mailbox 0 and a tenant session of requester 6 in mailbox 1. -/
def hst : State := tens (oper core)
theorem witness_bar2 : hst.hostUp = true ∧ hst.isFrozen = false ∧ hst.bar2Check 6 (bar2At 0x3FFFFF) = none ∧ hst.lineOk 0 65535 = true ∧
    (hst.tile 0).liveLine 65535 = false ∧ (hst.tile 0).hostRing 0x3FFFFF = none ∧ (after (.bar2Write ⟨6, true, 0x3FFFFF⟩ [8]) hst).byte 0x3FFFFF = 8 ∧
    (after (.bar2Read ⟨6, false, 0x3FFFFF⟩ 1) hst).out = [.host 6 0 [0]] := by decide +kernel
theorem witness_bar2_tower : let s := hst.setFld .TWR_CFG [0] F.TWR_CFG_RET 0; let a : HostAccess := ⟨6, true, 0x1000000000⟩; hst.twrAsleep a.off = true ∧
    (after (.bar2Read a 64) hst).parked.length = 1 ∧ s.twrAsleep a.off = false ∧ s.bar2Check 6 (bar2At a.off) = none ∧ s.physLine 0 0 = some 0 ∧ s.bar2Lines 0 0 64 = true ∧
    (after (.bar2Write a (List.replicate 64 8)) s).byte (twrAddr 0 63) = 8 ∧ (after (.bar2Read a 64) s).out = [.host 6 0 (List.replicate 64 0)] := by decide +kernel
theorem witness_bar2_slot : SlotFree hst 0 65535 := by unfold SlotFree; decide +kernel
theorem witness_bar2_refused : hst.bar2Check 5 (bar2At 0) = some (1, some (.HOST_STAT, F.HOST_STAT_UR_CNT)) ∧ hst.bar2Check 6 (bar2At 0x4000000000) = some (1, some (.HOST_STAT, F.HOST_STAT_UR_CNT)) ∧
    hst.bar2Check 6 (bar2At (8 * 0x400000)) = some (2, some (.HOST_STAT, F.HOST_STAT_HOST_DENY)) ∧ (after (.bar2Write ⟨5, false, 0⟩ [8]) hst).out = [.host 5 1 []] := by decide +kernel
theorem witness_mailboxWrite : hst.serving = true ∧ (hst.mbox 0).bound = true ∧ hst.mboxOwn 0 6 = false ∧ hst.mboxOwn 0 5 = true ∧ hst.cmdOcc 0 = 0 ∧
    (after (.mailboxWrite ⟨6, true, 0x2000000⟩ (List.replicate 8 0)) hst).fld .MB_CNT [0] F.MB_CNT_FOREIGN = 1 ∧
    (after (.mailboxWrite ⟨5, true, 0x2000000⟩ (List.replicate 256 0)) hst).cmdOcc 0 = 1 ∧ (hst.mbox 15).bound = false ∧ hst.session 9 = none ∧
    (after (.mailboxWrite ⟨9, true, 0x20F0000⟩ (List.replicate 8 0)) hst).mboxOwn 15 9 = true := by decide +kernel
theorem witness_mbEvrel : let s := hst.setFld .MB_STAT [0] F.MB_STAT_ETAIL 3; s.evOcc 0 = 3 ∧ s.fld .SESS [0] F.SESS_STATE ≠ 0 ∧ (s.mbox 0).wait = [] ∧
    (after (.mbEvrel 5 0 4) s).fld .MB_STAT [0] F.MB_STAT_UND = 1 ∧ (after (.mbEvrel 5 0 3) s).evOcc 0 = 0 ∧ (after (.mbEvrel 6 0 3) s).fld .MB_CNT [0] F.MB_CNT_FOREIGN = 1 := by decide +kernel
theorem witness_hostLinkUp : let s := (up.setFld .FW_STAT [] F.FW_STAT_STAGE 8).setFld .HOST_STAT [] F.HOST_STAT_WIDTH 0; s.perst = false ∧
    (after (.hostLinkUp 16 6) s).fld .HOST_STAT [] F.HOST_STAT_WIDTH = 16 ∧ (after .perstN hst).perst = true ∧ (after .hostLinkDown hst).reg .SESS [0] = 0 := by decide +kernel

/-! ### Sessions -/

/-- A command entry. -/
def entry (c : Nat) (body : Bytes) : Bytes := [BitVec.ofNat 8 c, 1, BitVec.ofNat 8 body.length, 0] ++ List.replicate 12 0 ++ body
/-- A command of `hst` in the ring of mailbox `m`, with UTC set. -/
def cmd (m c : Nat) (body : Bytes) : State := { (hst.setFld .MB_STAT [m] F.MB_STAT_CTAIL 1).setBytes (mboxAddr m 0) (entry c body) with utcSet := true }
/-- Whether mailbox `m` is ready with a command of this form. -/
def formed (m c need ext : Nat) (rsvd : List (Nat × Nat)) (s : State) : Bool :=
  s.sesReady m && decide (s.byte (mboxAddr m 0) = BitVec.ofNat 8 c) && sesShape (s.bytes (mboxAddr m 0) 256) need ext rsvd
theorem witness_sesOpen : let s := { (cmd 2 1 [1, 0, 1, 0, 7, 0]) with fuses := ⟨2, [], 0, false, none⟩ }; formed 2 1 6 6 [(3, 1)] s = true ∧ s.fld .SESS [2] F.SESS_STATE = 0 ∧ s.openRefusal 1 7 0 1 = some 1 := by
  decide +kernel
theorem witness_sesProve : let s := (cmd 1 2 (List.replicate 114 0)).setFld .SESS [1] F.SESS_STATE 1; formed 1 2 114 171 [] s = true ∧ s.fld .SESS [1] F.SESS_KIND = 1 ∧ s.proved 1 (List.replicate 114 0) = false := by decide +kernel
theorem witness_sesClose : formed 1 3 0 0 [] (cmd 1 3 []) = true ∧ sesShape (entry 3 [1]) 0 0 [] = false := by decide +kernel
theorem witness_sesSetUtc : formed 0 0x10 8 8 [] (cmd 0 0x10 (natLe 8 5)) = true ∧
    formed 1 0x10 8 8 [] (cmd 1 0x10 (natLe 8 5)) = true := by decide +kernel
theorem witness_sesStage : let b := natLe 8 (Reg.loc .METER_CFG []) ++ natLe 8 9; let s := cmd 0 0x11 b; formed 0 0x11 16 224 [] s = true ∧ stageReg (Reg.loc .METER_CFG []) = some (.METER_CFG, []) ∧
    (stagePairs b 16).any s.retiredEn = false := by decide +kernel
theorem witness_sesCommit : let b := natLe 8 100000 ++ natLe 4 (2 ^ 31); let s := (cmd 0 0x12 b); let v := BitVec.ofNat 64 (2 ^ 31); formed 0 0x12 12 12 [] s = true ∧
    v = keepFields Reg.COMMIT_CTL.info.flds v ∧ s.ns + 100000 ≤ 100000 ∧ s.commitCheck none = some (3, 0) ∧
    (s.setReg .POLDER_CFG [0] (s.applied? (.POLDER_CFG, [0]))).commitCheck none = none := by decide +kernel
theorem witness_sesPolder : formed 1 0x13 2 2 [] ((cmd 1 0x13 [0, 0]).setFld .POLDER_STAT [0] F.POLDER_STAT_STATE 1) = true ∧ (cmd 1 0x13 [0, 1]).polderState 0 = 2 ∧
    (cmd 1 0x13 [0, 1]).sesPolderOk 1 0 = true ∧ sget none (cmd 1 0x13 [0, 1]).quarAt 0 = none ∧ (cmd 1 0x13 [0, 1]).fld .SESS [1] F.SESS_KIND = 1 ∧ (cmd 1 0x13 [0, 0]).polderState 0 ≠ 1 := by decide +kernel
theorem witness_sesProgram : let s := (hring ((cmd 1 0x14 (List.replicate 164 0)).setFld .POLDER_STAT [0] F.POLDER_STAT_STATE 1) (2 * 2 ^ 36 + 3 * 2 ^ 52 + 2 ^ 59)).setReg .RCPT_CFG [0] (F.RCPT_CFG_RING.set 0 2);
    formed 1 0x14 164 164 [] s = true ∧ s.sesPolderOk 1 0 = true ∧ s.polderState 0 ≠ 2 ∧ s.fld .RCPT_CFG [0] F.RCPT_CFG_TILE < 1152 ∧ s.rcptRingOk 0 2 = true := by decide +kernel
theorem witness_sesEpoch : let s := (cmd 1 0x15 [0, 3, 3, 0, 0, 0, 0, 0]).setFld .EP_SH [0, 3] F.EP_SH_STATE 2; formed 1 0x15 8 88 [(3, 1)] s = true ∧ s.sesPolderOk 1 0 = true ∧ s.epState 0 3 = 2 := by decide +kernel
theorem witness_sesRetier : let s := cmd 1 0x16 [63, 1, 15, 0, 9, 0, 8, 0]; formed 1 0x16 8 8 [(3, 1)] s = true ∧ s.fld .HEAT_TBL [63] F.HEAT_TBL_EN = 0 ∧
    (s.setReg .HEAT_TBL [63] (F.HEAT_TBL_EN.set 0 1)).fld .HEAT_TBL [63] F.HEAT_TBL_EN = 1 ∧ s.sesPolderOk 1 0 = true := by decide +kernel
theorem witness_sesAttest : formed 1 0x17 33 33 [] (cmd 1 0x17 (7 :: List.replicate 32 0)) = true := by decide +kernel

/-! ### Key objects -/

/-- An object: code, version 1 and what follows. -/
def ob (c : Nat) (b : Bytes) : Bytes := [BitVec.ofNat 8 c, 1, 0, 0] ++ b
/-- Zero bytes. -/
def z (n : Nat) : Bytes := List.replicate n 0
/-- The state in FIELD with security version 3 in the image. -/
def field : State := { up.setFld .LC_STAT [] F.LC_STAT_ISVN 3 with fuses := ⟨2, [], 0, false, none⟩ }
theorem witness_getCerts : up.hostUp = true ∧ (ob 1 []).length = 4 ∧ byteAt (ob 1 []) 0 = 1 ∧ allZero (slice (ob 1 []) 2 2) = true ∧ (ob 2 (z 36)).length = 40 ∧
    (after (.getCerts (ob 2 (z 36))) up).fld .KM_STAT [] F.KM_STAT_REJ = 1 := by decide +kernel
theorem witness_doeAttest : let o := ob 2 (7 :: z 35); o.length = 40 ∧ allZero (slice o 5 3) = true ∧ field.lc = 2 ∧ up.lc ≠ 2 := by decide +kernel
theorem witness_regTenant : (let o := ob 0x10 (natLe 4 7 ++ z 16 ++ 1 :: z 284); o.length = 309 ∧ leNat (slice o 4 2) = 7 ∧ allZero (slice o 20 4) = true ∧ field.lc = 2 ∧ field.tenants = [] ∧
    allZero (slice o 24 57) = false) ∧ slice (ob 0x10 (natLe 4 7 ++ devId ++ z 8 ++ 1 :: z 284)) 8 8 = devId := ⟨by decide +kernel, rfl⟩
/-- A wrapped key record for slot 255 of tenant 7 with a late expiry. -/
def krec (id : Bytes) : Bytes := ob 0x11 ([0x20, 1, 7, 0, 3, 0, 0, 0] ++ id ++ [255] ++ z 7 ++ natLe 9 (2 ^ 71) ++ z 239)
theorem witness_loadKey : (let o := krec (z 8); let r := o.drop 4; o.length = 276 ∧ allZero (slice o 21 7) = true ∧ allZero (slice o 37 7) = true ∧ byteAt r 0 = 0x20 ∧ byteAt r 16 = 255 ∧
    field.wt < leNat (slice r 24 9) ∧ field.fld .KEY_STAT [255] F.KEY_STAT_LOADED = 0) ∧ slice ((krec devId).drop 4) 8 8 = devId := ⟨by decide +kernel, rfl⟩
theorem witness_eraseKey : (let o := ob 0x12 (255 :: z 11 ++ 1 :: z 178); o.length = 195 ∧ byteAt o 16 = 1 ∧ allZero (slice o 5 3) = true ∧ allZero (slice o 17 7) = true) := by decide +kernel
/-- A consent token for polder 7. -/
def trec (id : Bytes) : Bytes := ob 0x13 ([0x40, 1, 7, 3, 7, 0, 0, 0] ++ id ++ z 160)
theorem witness_debugToken : (let o := trec (z 8); let b := o.drop 4; o.length = 180 ∧ allZero (slice o 10 2) = true ∧ byteAt b 0 = 0x40 ∧ (byteAt b 2).toNat = 7 ∧ (byteAt b 3).toNat = 3 ∧
    sget 0 field.serials 7 ≤ leNat (slice b 40 8)) ∧ slice ((trec devId).drop 4) 8 8 = devId := ⟨by decide +kernel, rfl⟩
theorem witness_lcRequest : let o := ob 0x20 (2 :: z 214); o.length = 219 ∧ allZero (slice o 5 3) = true := by decide +kernel
theorem witness_advanceSvn : (let o := ob 0x21 ([3, 1] ++ z 181); o.length = 187 ∧ allZero (slice o 6 2) = true ∧ 3 ≤ field.fld .LC_STAT [] F.LC_STAT_ISVN ∧ field.fuses.svn < 3) ∧
    slice (ob 0x21 ([3, 1, 0, 0] ++ devId ++ z 171)) 8 8 = devId := ⟨by decide +kernel, rfl⟩

/-! ### Bring-up and flash -/

/-- The state at reset with PWR_OK_AON up, in a stage. -/
def stg (n : Nat) : State := ({ State.reset with aonOk := true } : State).setStage n
theorem witness_pwrOkAonRise : State.reset.aonOk = false ∧ (after .pwrOkAonRise State.reset).stageNow = 1 := by decide +kernel
theorem witness_stageRom : (stg 1).aonOk = true ∧ (stg 1).thermTrip = false ∧ (stg 1).stageNow = 1 ∧ (after .stageRom (stg 1)).stageNow = 15 := by decide +kernel
theorem witness_stages : (after .stageSupply (stg 2)).stageNow = 3 ∧ (after .stageClock (stg 3)).stageNow = 4 ∧ (stg 4).stageNow = 4 ∧ (after .stageReady (stg 9)).stageNow = 10 := by decide +kernel
theorem witness_stageClock : (stg 3).present 23 = true ∧ (after .stageClock (stg 3)).fld .REG_CLK [23] F.REG_CLK_LOCK = 1 := by decide +kernel
theorem witness_stageBist : let x : BistResult := ⟨[1151], [(23, 3)], [5]⟩; (stg 5).cleared = [] ∧ (after (.stageBist x) (stg 5)).repairMarks = [1151] ∧ (after (.stageBist x) (stg 5)).layerMarks = [95] ∧
    (after (.stageBist x) (stg 5)).regionMarks = [5] := by decide +kernel
theorem witness_stageRepair : let s := { stg 6 with regionMarks := [23] }; (after (.stageRepair []) s).present 23 = false ∧ (after (.stageRepair []) s).stageNow = 7 := by decide +kernel
theorem witness_stageKeys : (stg 7).stageNow = 7 ∧ (stg 8).stageNow = 8 ∧ ((stg 8).setReg .REG_PWR [23] (F.REG_PWR_STATE.set 0 3)).regState 23 = 3 ∧ (stg 8).polderOf 23 = none ∧ (stg 8).present 23 = true := by decide +kernel
theorem witness_stageReady : let s := (stg 9).setFld .FW_STAT [] F.FW_STAT_TRIAL 1; s.stageNow = 9 ∧ (after .stageReady s).fld .FW_STAT [] F.FW_STAT_TRIAL = 0 := by decide +kernel
theorem witness_stageLinks : let v : W64 := F.PORT_CFG_EN.set 0 1; let s := { stg 10 with flash := { State.reset.flash with cfg := [(Reg.loc .PORT_CFG [15], v)] } };
    s.stageNow = 10 ∧ s.commit = none ∧ s.opStaged = false ∧ s.portsToTrain = [15] ∧ s.ns + 200000 < 2 ^ 64 ∧
    (after .stageLinks s).commit = some ⟨none, none⟩ ∧ (after .stageLinks s).fld .PORT_CFG [15] F.PORT_CFG_EN = 1 ∧
    (after .stageLinks s).applied = s.applied ∧ (stg 10).portsToTrain = [] := by decide +kernel
theorem witness_imageWrite : (stg 15).stageNow = 15 ∧ (after (.imageWrite true [1, 2]) (stg 15)).fld .FW_STAT [] F.FW_STAT_FWREJ = 1 ∧ (stg 10).terern = true ∧ true ≠ (stg 10).boot.imageB ∧
    (after (.imageWrite true [1, 2]) (stg 10)).byte (imageAt true + 1) = 2 := by decide +kernel
theorem witness_listClear : let s := { stg 10 with retired := [14, 15], flash := { State.reset.flash with absent := [23] } }; s.terern = true ∧ (after (.listClear 15) s).retired = [14] ∧
    23 ∈ (after (.listClear 15) s).cleared ∧ (after .powerDown s).out = [.ready] := by decide +kernel

/-! ### Faults and power -/

/-- A report and the key of its router. -/
def frep : Report := ⟨5, 0x10, false, false, 3, 0, 1, 0, []⟩
def fkey (n : Nat) : RKey := ⟨repKey frep, 0, n, false, 0⟩
theorem witness_faultReport : let s := { core with routerKeys := [fkey 1] }; s.isFrozen = false ∧ s.fld .FRZ_CFG [] F.FRZ_CFG_FAULT = 0 ∧ s.wt < 0 + 256000 ∧ (fkey 1).key = repKey frep ∧
    ((after (.faultReport frep) s).routerKeys.map RKey.count) = [2] := by decide +kernel
theorem witness_faultReport_case : core.routerKeys = [] ∧ core.funnelQ = [] ∧ core.funnelFits frep = true ∧ (after (.faultReport frep) core).cases.length = 1 ∧
    (after (.faultReport frep) { core with funnelQ := [frep] }).funnelQ.length = 2 := by decide +kernel
theorem witness_faultReport_dropped : let s := { core with funnelQ := List.replicate 4096 frep }; 4096 ≤ s.funnelQ.length ∧ (after (.faultReport frep) s).lostReport = true := by decide +kernel
theorem witness_summary : let s := fun n => { core with routerKeys := [fkey n], wt := 256000 }; (s 0).routerKeys.find? (fun x => decide (x.key = repKey frep)) = some (fkey 0) ∧ (fkey 0).since + 256000 ≤ (s 0).wt ∧
    (after (.summary (repKey frep)) (s 0)).cases = [] ∧ (after (.summary (repKey frep)) (s 1)).cases.length = 1 := by decide +kernel
theorem witness_caseClose : let c : Case := ⟨0, 0, [frep], false⟩; let s := { core with cases := [c] }; let v := { s with cases := [] }.enterPast c; s.ceCases = [] ∧ s.funnelQ = [] ∧
    v.lostLines c = [] ∧ (after .caseClose s).cases = [] := by decide +kernel
/-- Region 23 in a power state. -/
def reg (n : Nat) : State := core.setReg .REG_PWR [23] (F.REG_PWR_STATE.set 0 n)
theorem witness_regionWake : (reg 1).regState 23 = 1 ∧ (reg 1).wakeQ = [] ∧ (reg 1).waking = [] ∧ (after (.regionWake .mgmt 23) (reg 1)).regState 23 = 2 ∧
    (after (.regionWake .mgmt 23) { reg 1 with waking := [(0, 0), (1, 0), (2, 0), (3, 0)] }).wakeQ = [23] ∧ (after (.regionWake .mgmt 23) (reg 3)).fld .PWR_STAT [] F.PWR_STAT_CFG_REJ = 1 := by decide +kernel
theorem witness_regionSleep : (reg 3).regState 23 = 3 ∧ (reg 3).polderOf 23 = none ∧ (after (.regionSleep .mgmt 23) (reg 3)).regState 23 = 1 ∧
    (after (.regionSleep .mgmt 23) (reg 1)).fld .PWR_STAT [] F.PWR_STAT_CFG_REJ = 1 := by decide +kernel
theorem witness_regionAwake : let s := { reg 2 with waking := [(23, 0)] }; s.waking.find? (fun w => decide (w.1 = 23)) = some (23, 0) ∧ s.present 23 = true ∧ s.layerMarks = [] ∧ s.repairMarks = [] ∧ s.regionMarks = [] ∧
    s.wakeQ = [] ∧ s.testMarks = [] ∧ regionOf 1151 = 23 ∧ (after (.regionAwake 23 false) { s with testMarks := [1151] }).repairMarks = [1151] := by decide +kernel
theorem witness_cappingPass : up.terern = true ∧ up.isFrozen = false ∧ up.polderState 0 ≠ 0 ∧ 19 ≤ up.cap 0 ∧ up.cap 0 ≤ 64 ∧ up.commit = none ∧ (up.setFld .FRZ_STAT [] F.FRZ_STAT_STATE 2).isFrozen = true ∧
    (up.setFld .FRZ_STAT [] F.FRZ_STAT_STATE 2).terern = true := by decide +kernel
theorem witness_guardbandCheck : up.terern = true ∧ up.guardband 1 < 60 ∧ 60 ≤ { up with life := [(1, 60 * 2 ^ 16)] }.guardband 1 ∧ up.commit = none ∧ (after (.guardbandCheck 1 true 23) up).guardband 1 = 5 := by
  decide +kernel

/-! ### Freeze and reset -/

/-- `core` in a freeze state. -/
def frz (n : Nat) : State := core.setFld .FRZ_STAT [] F.FRZ_STAT_STATE n
theorem witness_freeze : let s := core.setReg .FRZ_CFG [] (F.FRZ_CFG_WT.set (F.FRZ_CFG_PIN.set 0 1) 1); s.frzState = 0 ∧ nsWt (s.reg .FRZ_TWT []).toNat ≤ s.wt ∧ (after .frzNFall s).frzState = 1 ∧
    (after .freezeWtTrigger s).fld .FRZ_STAT [] F.FRZ_STAT_SRC = 4 ∧ (after (.freeze .ctl) s).fld .FRZ_STAT [] F.FRZ_STAT_SRC = 6 ∧
    (after (.freeze .jtag) (frz 3)).fld .FRZ_STAT [] F.FRZ_STAT_IGN_CNT = 1 ∧ core.fld .FRZ_CFG [] F.FRZ_CFG_PIN = 0 := by decide +kernel
theorem witness_freezeStop : let d := fun (f : Nat) => (⟨true, 100, 0, 0, some f, []⟩ : Domain); let s := fun f => (frz 1).setDom 0 (d f); (s 100).polderOf 0 = some 0 ∧ ((s 100).dom 0).stop = some 100 ∧ (s 100).allStopped = true ∧
    (s 100).fld .FRZ_CFG [] F.FRZ_CFG_FULL = 0 ∧ (after (.freezeStop 0) (s 100)).frzState = 2 ∧ ((s 100).setDom 7 (d 101)).allStopped = false := by decide +kernel
theorem witness_thaw : (frz 2).frzState = 2 ∧ (frz 2).uioHeld = [] ∧ (after (.thaw .ctl true) (frz 2)).frzState = 0 ∧ (after (.thaw .ctl false) (frz 1)).fld .FRZ_STAT [] F.FRZ_STAT_THREJ = 1 ∧
    (after (.thawWt true) ((frz 2).setReg .FRZ_CTL [] 4)).frzState = 0 ∧ (after (.thawWt true) ((frz 1).setReg .FRZ_CTL [] 4)).fld .FRZ_STAT [] F.FRZ_STAT_THREJ = 1 := by decide +kernel
theorem witness_freezeReadout : (frz 2).isFrozen = true ∧ (after (.freezeReadout true (.acc 0 0)) (frz 2)).out.length = 1 := by decide +kernel
theorem witness_reset : up.pending = [] ∧ (after .warmReset up).fld .FW_STAT [] F.FW_STAT_STAGE = 1 ∧ core.frzState ≠ 3 ∧ (frz 3).frzState = 3 ∧ (after .xtalStop up).alert = true ∧
    (after .thermalTrip up).domOn 0 = false ∧ (after (.railOrderViolation 6) up).fld .PWR_STAT [] F.PWR_STAT_RAIL = 6 := by decide +kernel
theorem witness_railLoss : (after (.railLoss 6) up).fld .PWR_STAT [] F.PWR_STAT_UVRST = 1 ∧ (after (.railLoss 0) up).aonOk = false ∧ (after .refclkLockLoss up).fld .PWR_STAT [] F.PWR_STAT_CLKRST = 1 := by decide +kernel

end Sys2Proof.Tests
end

section
/-! SUPPORT. Reserved bits (R7). A single bit is a field one bit wide, so what the laws of fields say of two fields that do not meet holds of a
bit and a field that does not cover it: every register write and read is then a run of field updates, none of which meets the bit. -/
namespace Sys2Proof.Machine

/-- The one-bit field at a bit position. -/
def Fld.bit (i : Nat) : Fld := ⟨i, i, .rsvd, 0⟩

theorem Fld.getLsbD_eq_bit_get (i : Nat) (w : W64) : w.getLsbD i = decide ((Fld.bit i).get w = 1) := by
  simp [Fld.bit, Fld.get, Fld.width, BitVec.getLsbD, Nat.testBit_eq_decide_div_mod_eq]

theorem Fld.getLsbD_set_outside {f : Fld} {i : Nat} (w : W64) (v : Nat) (h : f.lo ≤ f.hi) (h64 : f.hi < 64)
    (hi : ¬(f.lo ≤ i ∧ i ≤ f.hi)) : (f.set w v).getLsbD i = w.getLsbD i := by
  have apart : i < f.lo ∨ f.hi < i := by omega
  have same := Fld.get_set_other (Fld.bit i) f w v le_rfl h h64 apart
  rw [Fld.getLsbD_eq_bit_get, Fld.getLsbD_eq_bit_get, same]

/-- A field's value hangs on the bits it covers alone. -/
theorem Fld.get_congr {f : Fld} {v w : W64} (h : f.lo ≤ f.hi) (same : ∀ j, f.lo ≤ j → j ≤ f.hi → v.getLsbD j = w.getLsbD j) :
    f.get v = f.get w := by
  apply Nat.eq_of_testBit_eq
  intro k
  simp only [Fld.get, Nat.testBit_mod_two_pow, Nat.testBit_div_two_pow]
  by_cases hk : k < f.width
  · have covered : k + f.lo ≤ f.hi := by unfold Fld.width at hk; omega
    have bits := same (k + f.lo) (by omega) covered
    simp only [BitVec.getLsbD] at bits
    rw [bits]
  · simp [hk]

theorem Fld.get_flip_outside {f : Fld} {i : Nat} (v : W64) (h : f.lo ≤ f.hi) (hi : ¬(f.lo ≤ i ∧ i ≤ f.hi)) :
    f.get (v ^^^ (1#64 <<< i)) = f.get v := by
  refine Fld.get_congr h fun j hlo hhi => ?_
  have apart : j ≠ i := by rintro rfl; exact hi ⟨hlo, hhi⟩
  have clear : (1#64 <<< i).getLsbD j = false := by simp; omega
  rw [BitVec.getLsbD_xor, clear, Bool.xor_false]

/-- Every field of the register maps lies within the word, its low bit not above its high bit. -/
theorem Reg.info_flds_inWord (r : Reg) : ∀ f ∈ r.info.flds, f.lo ≤ f.hi ∧ f.hi < 64 := by
  cases r <;> decide

theorem readFields_getLsbD_uncovered {fs : List Fld} {i : Nat} (w : W64) (inWord : ∀ f ∈ fs, f.lo ≤ f.hi ∧ f.hi < 64)
    (hi : ∀ f ∈ fs, ¬(f.lo ≤ i ∧ i ≤ f.hi)) : (readFields fs w).getLsbD i = false := by
  induction fs with
  | nil => simp [readFields]
  | cons f fs ih =>
    obtain ⟨⟨hf, hf64⟩, hfs⟩ := List.forall_mem_cons.mp inWord
    obtain ⟨hif, hifs⟩ := List.forall_mem_cons.mp hi
    have rest := ih hfs hifs
    have shown : (f.set (readFields fs w) (f.get w)).getLsbD i = false := by
      rw [Fld.getLsbD_set_outside _ _ hf hf64 hif, rest]
    unfold readFields
    split
    · exact rest
    · exact rest
    · exact shown

/-- A write takes from the written value what its fields show of it and no more. -/
theorem writeFields_congr {fs : List Fld} {v w : W64} (old : W64) (same : ∀ f ∈ fs, f.get v = f.get w) :
    writeFields fs old v = writeFields fs old w := by
  induction fs with
  | nil => rfl
  | cons f fs ih =>
    obtain ⟨hf, hfs⟩ := List.forall_mem_cons.mp same
    simp only [writeFields, hf, ih hfs]

/-- Settles O22: no field of a register meets a reserved bit, so a read leaves it at the zero it starts from, and a value with the bit flipped
shows every field the same. -/
theorem reservedBitsReadZeroAndIgnoreWrites : Obligations.ReservedBitsReadZeroAndIgnoreWrites := by
  unfold Obligations.ReservedBitsReadZeroAndIgnoreWrites
  intro r i _ reserved
  have inWord := Reg.info_flds_inWord r
  refine ⟨fun w => readFields_getLsbD_uncovered w inWord reserved, fun old v => writeFields_congr old fun f hf => ?_⟩
  exact Fld.get_flip_outside v (inWord f hf).1 (reserved f hf)

end Sys2Proof.Machine
end

section
/-! SUPPORT. Writes of software to a tile register. A write that reaches the window of a tile changes that tile alone; what it leaves of the
tile's registers follows from the laws of one register (R7, R8) and of the pad's event record (R56). -/
namespace Sys2Proof.Machine

/-! ### One field of a register -/

/-- Two fields share no bit. -/
def Fld.Apart (f g : Fld) : Prop := f.hi < g.lo ∨ g.hi < f.lo

/-- No two fields of a register of the register maps share a bit. -/
theorem Reg.info_flds_apart (r : Reg) : r.info.flds.Pairwise Fld.Apart := by
  unfold Fld.Apart
  cases r <;> decide

/-- A write handles one field at a time: it leaves what the fields after it left, or replaces that field alone. -/
theorem writeFields_cons (g : Fld) (fs : List Fld) (old v : W64) :
    writeFields (g :: fs) old v = writeFields fs old v ∨ ∃ n, writeFields (g :: fs) old v = g.set (writeFields fs old v) n := by
  cases h : g.acc with
  | rw | rws | stg | w1c => exact .inr ⟨_, by simp only [writeFields, h]; rfl⟩
  | ro | wo | rsvd => exact .inl (by simp only [writeFields, h])

/-- A written RW field reads what was written to it (Table 0-2). -/
theorem Fld.get_writeFields_rw {fs : List Fld} {f : Fld} (old v : W64) (inWord : ∀ g ∈ fs, g.lo ≤ g.hi ∧ g.hi < 64)
    (apart : fs.Pairwise Fld.Apart) (hf : f ∈ fs) (rw : f.acc = .rw) : f.get (writeFields fs old v) = f.get v := by
  induction fs with
  | nil => cases hf
  | cons g fs ih =>
    obtain ⟨⟨hg, hg64⟩, hfs⟩ := List.forall_mem_cons.mp inWord
    obtain ⟨hgfs, apart⟩ := List.pairwise_cons.mp apart
    rcases List.mem_cons.mp hf with rfl | hf
    · simp only [writeFields, rw]
      rw [Fld.get_set _ _ _ hg hg64, Nat.mod_eq_of_lt (Fld.get_lt _ _)]
    · have rest := ih hfs apart hf
      rcases writeFields_cons g fs old v with same | ⟨n, set⟩
      · rw [same, rest]
      · rw [set, Fld.get_set_other f g _ _ (hfs f hf).1 hg hg64 (hgfs f hf).symm, rest]

/-- R8 keeps only W1C fields: in a register without one, nothing is set again after a write. -/
theorem keepRaised_of_no_w1c {r : Reg} (l : List (Nat × Nat)) (i : List Nat) (old v : W64) (h : ∀ f ∈ r.info.flds, f.acc ≠ .w1c) :
    keepRaised l r i old v = v := by
  unfold keepRaised
  generalize r.info.flds = fs at h
  induction fs with
  | nil => rfl
  | cons f fs ih =>
    obtain ⟨hf, hfs⟩ := List.forall_mem_cons.mp h
    simpa [hf] using ih hfs

/-! ### One register of a tile -/

/-- Every element of a register array lies at its base or above. -/
theorem Reg.loc_ne_of_lt_base {r q : Reg} {i : List Nat} (h : r.loc i < q.info.base) (j : List Nat) : q.loc j ≠ r.loc i :=
  (h.trans_le (Nat.le_add_right _ _)).ne'

theorem Tile.regsBut_setReg (x : Tile) (r : Reg) (i : List Nat) (v : W64) : TileRegsBut [r.loc i] x (x.setReg r i v) :=
  fun q j h => Tile.reg_setReg_other x r q i j v (List.ne_of_not_mem_cons h)

theorem Tile.regsBut_setFld (x : Tile) (r : Reg) (i : List Nat) (f : Fld) (v : Nat) : TileRegsBut [r.loc i] x (x.setFld r i f v) :=
  Tile.regsBut_setReg x r i _

theorem Tile.regsBut_write (x : Tile) (r : Reg) (i : List Nat) (v : W64) : TileRegsBut [r.loc i] x (x.write r i v) :=
  Tile.regsBut_setReg x r i _

theorem TileRegsBut.trans {hs : List Nat} {x y z : Tile} (h : TileRegsBut hs x y) (h' : TileRegsBut hs y z) : TileRegsBut hs x z :=
  fun r i hr => (h' r i hr).trans (h r i hr)

theorem Tile.fld_setFld_same (x : Tile) {r : Reg} (i : List Nat) {f : Fld} (v : Nat) (hf : f ∈ r.info.flds) :
    (x.setFld r i f v).fld r i f = v % 2 ^ f.width := by
  obtain ⟨h, h64⟩ := Reg.info_flds_inWord r f hf
  have stored : (x.setFld r i f v).reg r i = f.set (x.reg r i) v := Tile.reg_setReg_same x r i _
  rw [Tile.fld, stored, Fld.get_set _ _ _ h h64]

/-- An RW field of a register without W1C fields reads what software wrote to it. -/
theorem Tile.fld_write_rw (x : Tile) {r : Reg} (i : List Nat) {f : Fld} (v : W64) (no_w1c : ∀ g ∈ r.info.flds, g.acc ≠ .w1c)
    (hf : f ∈ r.info.flds) (rw : f.acc = .rw) : (x.write r i v).fld r i f = f.get v := by
  rw [Tile.fld, Tile.write, Tile.reg_setReg_same, keepRaised_of_no_w1c _ _ _ _ no_w1c,
    Fld.get_writeFields_rw _ _ (Reg.info_flds_inWord r) (Reg.info_flds_apart r) hf rw]

/-! ### The pad's event record (R56) -/

theorem Tile.regsBut_padEvent (x : Tile) (f : Fld) (line unit th : Nat) :
    TileRegsBut [Reg.loc .PAD_ERR []] x (x.padEvent f line unit th) :=
  (Tile.regsBut_setReg x .PAD_ERR [] _).trans (Tile.regsBut_setFld _ .PAD_ERR [] f 1)

theorem Tile.regsBut_cfgRej (x : Tile) (src : Writer) : TileRegsBut [Reg.loc .PAD_ERR []] x (x.cfgRej src) :=
  Tile.regsBut_padEvent x _ _ _ _

theorem Tile.cfgRej_fld (x : Tile) (src : Writer) : (x.cfgRej src).fld .PAD_ERR [] F.PAD_ERR_CFG_REJ = 1 :=
  Tile.fld_setFld_same _ [] 1 (by decide)

/-! ### The way to the window of a tile -/

theorem State.routeFree_applied (s : State) (a b : Nat) : (s.routeFree a b).applied = s.applied := by
  unfold State.routeFree; split <;> rfl

theorem State.reg_routeFree_other (s : State) (a b : Nat) {q : Reg} {j : List Nat} (h : q.loc j ≠ Reg.loc .SEAM_STAT []) :
    (s.routeFree a b).reg q j = s.reg q j := by
  unfold State.routeFree
  split
  · exact State.reg_setReg_other s.useFree .SEAM_STAT q [] j _ h
  · rfl

theorem State.polderState_routeFree (s : State) (a b d : Nat) : (s.routeFree a b).polderState d = s.polderState d := by
  have apart : Reg.loc .POLDER_STAT [d] ≠ Reg.loc .SEAM_STAT [] := Reg.loc_ne_of_lt_base (by decide) [d]
  unfold State.polderState State.fld
  rw [State.reg_routeFree_other s a b apart]

theorem State.tilePolder_routeFree (s : State) (a b t : Nat) : (s.routeFree a b).tilePolder t = s.tilePolder t := by
  simp only [State.tilePolder, State.polderOf, State.app, State.routeFree_applied]

theorem State.tenant_routeFree (s : State) (a b d : Nat) : (s.routeFree a b).tenant d = s.tenant d := by
  simp only [State.tenant, State.app, State.routeFree_applied]

/-- What a packet counts on its way leaves the dike at its destination as it is: that hangs on the applied settings and the states of
the polders (R336). -/
theorem State.dikeTile_routeFree (s : State) (a b src tenant dst : Nat) :
    (s.routeFree a b).dikeTile src tenant dst = s.dikeTile src tenant dst := by
  unfold State.dikeTile
  rw [State.tilePolder_routeFree]
  cases s.tilePolder dst with
  | none => rfl
  | some d => simp only [State.polderState_routeFree, State.tilePolder_routeFree, State.tenant_routeFree]

theorem State.sender_routeFree (s : State) (a b t : Nat) : (s.routeFree a b).sender t = s.sender t := by
  unfold State.sender
  rw [State.tilePolder_routeFree]
  cases s.tilePolder t with
  | none => rfl
  | some d => simp only [State.tenant_routeFree]

theorem State.tileBy_host (s : State) (req : BitVec 16) (t : Nat) (k : State → State) :
    s.tileBy (.host req) t k = if s.isFrozen then s.incSat .FRZ_STAT [] F.FRZ_STAT_HOSTREF 1 else if s.ownsTile req t then
      (let m := s.routeFree 1168 t; if m.dikeTile 1168 (m.sender t).2 t then k m else m.svcDrop) else s.urCount := rfl

theorem State.tileBy_thread (s : State) (t' : TileIx) (th : ThreadIx) (t : Nat) (k : State → State) :
    s.tileBy (.thread t' th) t k = if decide (t'.val = t) && !s.isFrozen then k s else s := rfl

theorem State.tileBy_mgmt (s : State) (t : Nat) (k : State → State) :
    s.tileBy .mgmt t k = if s.isFrozen then s else
      if s.dikeTile 1171 0 t then k (s.routeFree 1171 t) else (s.routeFree 1171 t).svcDrop := rfl

/-- A write that reaches the window acts there, on the state its packet left on its way. -/
theorem State.tileBy_of_reaches {s : State} {src : Writer} {t : Nat} (k : State → State) (h : Reaches src t s) :
    s.tileBy src t k = k (s.carried src t) := by
  obtain ⟨running, reach⟩ := h
  cases src with
  | host req =>
    obtain ⟨owns, dike⟩ : s.ownsTile req t = true ∧ s.dikeTile 1168 (s.sender t).2 t = true := reach
    have past : (s.routeFree 1168 t).dikeTile 1168 ((s.routeFree 1168 t).sender t).2 t = true := by
      rw [State.dikeTile_routeFree, State.sender_routeFree, dike]
    rw [State.tileBy_host, running, owns]
    exact if_pos past
  | thread t' th =>
    have own : t'.val = t := reach
    rw [State.tileBy_thread, running, decide_eq_true own]
    rfl
  | mgmt =>
    have dike : s.dikeTile 1171 0 t = true := reach
    rw [State.tileBy_mgmt, running, dike]
    rfl
  | jtag | i3c => exact reach.elim

theorem State.onlyTile_modTile (s : State) (t : Nat) (f : Tile → Tile) : OnlyTile t s (s.modTile t f) :=
  ⟨rfl, fun k hk => by simp [State.tile_modTile, hk], fun a => State.byte_modTile s t a f⟩

/-- A command that writes in the window of one tile completes where its writer reaches it: nothing but that tile changes, and the tile is
what the write makes of it. -/
theorem completes_tileWrite {c : Instr} {s : State} {src : Writer} {t : Nat} {f : Tile → Tile} {P : State → Prop}
    (meaning : exec c s = .next (s.tileBy src t fun s => s.modTile t f)) (h : Reaches src t s)
    (hP : ∀ u, OnlyTile t (s.carried src t) u → u.tile t = f ((s.carried src t).tile t) → P u) : Completes c s P := by
  refine ⟨(s.carried src t).modTile t f, ?_, hP _ (State.onlyTile_modTile _ t f) (State.tile_modTile_same _ t f)⟩
  rw [meaning, State.tileBy_of_reaches _ h]

end Sys2Proof.Machine
end

section
/-! SUPPORT. The bounds window of a thread (R32) and the code banks (R52, R55): a guarded write is either performed or rejected, and
each of the two says everything that becomes of the tile's registers. -/
namespace Sys2Proof.Machine

/-! ### A rejected write -/

/-- A configuration write ignored: CFG_REJ is set, no register but PAD_ERR changes (R56). -/
def Tile.Rejects (x y : Tile) : Prop := TileRegsBut [Reg.loc .PAD_ERR []] x y ∧ y.fld .PAD_ERR [] F.PAD_ERR_CFG_REJ = 1

theorem Tile.rejects_cfgRej (x : Tile) (src : Writer) : x.Rejects (x.cfgRej src) := ⟨x.regsBut_cfgRej src, x.cfgRej_fld src⟩

/-! ### The bounds window of a thread (R32) -/

theorem Tile.wrBnd_halted {x : Tile} {th : Nat} (src : Writer) (v : W64) (h : (x.th th).st = .halted) :
    x.wrBnd src th v = x.write .THR_BND [th] v := if_pos h

theorem Tile.wrBnd_not_halted {x : Tile} {th : Nat} (src : Writer) (v : W64) (h : (x.th th).st ≠ .halted) :
    x.wrBnd src th v = x.cfgRej src := if_neg h

/-- The three fields of a written bounds window (Table 2-11). -/
theorem Tile.write_thrBnd_flds (x : Tile) (th : Nat) (v : W64) :
    (x.write .THR_BND [th] v).fld .THR_BND [th] F.THR_BND_BASE = v.toNat % 2 ^ 16 ∧
    (x.write .THR_BND [th] v).fld .THR_BND [th] F.THR_BND_LIMIT = v.toNat / 2 ^ 16 % 2 ^ 16 ∧
    (x.write .THR_BND [th] v).fld .THR_BND [th] F.THR_BND_EN = v.toNat / 2 ^ 32 % 2 := by
  have stored {f : Fld} := Tile.fld_write_rw x (r := .THR_BND) [th] (f := f) v (by decide)
  have base : F.THR_BND_BASE.get v = v.toNat % 2 ^ 16 := by simp [Fld.get, Fld.width, F.THR_BND_BASE]
  exact ⟨(stored (by decide) rfl).trans base, stored (by decide) rfl, stored (by decide) rfl⟩

/-- Settles O24: both branches of R32's guard on the thread, each with its frame. -/
theorem boundsWindowsChangeOnlyWhileHalted : Obligations.BoundsWindowsChangeOnlyWhileHalted := by
  unfold Obligations.BoundsWindowsChangeOnlyWhileHalted
  intro s0 src t th v reaches
  refine completes_tileWrite rfl reaches fun u only tile => ⟨only, fun halted => ?_, fun running => ?_⟩
  · rw [tile, Tile.wrBnd_halted src v halted]
    obtain ⟨base, limit, en⟩ := Tile.write_thrBnd_flds ((s0.carried src t).tile t) th v
    exact ⟨base, limit, en, Tile.regsBut_write _ _ _ _⟩
  · rw [tile, Tile.wrBnd_not_halted src v running]
    obtain ⟨others, flag⟩ := ((s0.carried src t).tile t).rejects_cfgRej src
    have apart : Reg.loc .THR_BND [th] ≠ Reg.loc .PAD_ERR [] := Reg.loc_ne_of_lt_base (by decide) [th]
    exact ⟨others _ _ (by simpa using apart), flag, others⟩

/-! ### The code banks (R52, R55) -/

theorem Tile.allHalted_iff (x : Tile) : x.allHalted = true ↔ ∀ n < 16, (x.th n).st = .halted := by simp [Tile.allHalted]

theorem Tile.wrCodeCtl_halted {x : Tile} (src : Writer) (v : W64) (h : ∀ n < 16, (x.th n).st = .halted) :
    x.wrCodeCtl src v = x.setFld .CODE_CTL [] F.CODE_CTL_ACTIVE (F.CODE_CTL_ACTIVE.get v) := if_pos (x.allHalted_iff.mpr h)

theorem Tile.wrCodeCtl_not_halted {x : Tile} (src : Writer) (v : W64) (h : ¬∀ n < 16, (x.th n).st = .halted) :
    x.wrCodeCtl src v = x.cfgRej src := if_neg (x.allHalted_iff.not.mpr h)

/-- The selected bank is the bit written. -/
theorem Tile.setFld_codeCtl_active (x : Tile) (v : W64) :
    (x.setFld .CODE_CTL [] F.CODE_CTL_ACTIVE (F.CODE_CTL_ACTIVE.get v)).fld .CODE_CTL [] F.CODE_CTL_ACTIVE = v.toNat % 2 := by
  rw [Tile.fld_setFld_same x [] _ (by decide)]
  simp [Fld.get, Fld.width, F.CODE_CTL_ACTIVE]

/-- The register of a code bank: A, or B. -/
def Reg.codeBank (b : Bool) : Reg := if b then .CODE_B else .CODE_A

/-- The banks have the same fields (Table 2-10). -/
theorem Reg.codeBank_flds (b : Bool) : (Reg.codeBank b).info.flds = [F.CODE_A_BASE, F.CODE_A_SIZE] := by cases b <;> rfl

/-- The two fields of a written bank register (Table 2-10). -/
theorem Tile.write_codeBank_flds (x : Tile) (b : Bool) (v : W64) :
    (x.write (.codeBank b) [] v).fld (.codeBank b) [] F.CODE_A_BASE = v.toNat / 2 ^ 16 % 2 ^ 10 ∧
    (x.write (.codeBank b) [] v).fld (.codeBank b) [] F.CODE_A_SIZE = v.toNat % 2 ^ 6 := by
  have stored {f : Fld} := Tile.fld_write_rw x (r := .codeBank b) [] (f := f) v (by rw [Reg.codeBank_flds]; decide)
  rw [Reg.codeBank_flds] at stored
  have size : F.CODE_A_SIZE.get v = v.toNat % 2 ^ 6 := by simp [Fld.get, Fld.width, F.CODE_A_SIZE]
  exact ⟨stored (by decide) rfl, (stored (by decide) rfl).trans size⟩

/-- A bank register takes its write where the bank fits (R52) and is not the active one of a tile with a thread that is not halted (R55). -/
theorem Tile.wrBank_eq (x : Tile) (src : Writer) (b : Bool) (v : W64) :
    let fits := v.toNat / 2 ^ 16 % 2 ^ 10 + v.toNat % 2 ^ 6 ≤ 1024 ∧ v.toNat % 2 ^ 6 ≤ 32
    let free := (∀ n < 16, (x.th n).st = .halted) ∨ ¬(x.fld .CODE_CTL [] F.CODE_CTL_ACTIVE = if b then 1 else 0)
    x.wrBank src (if b then 1 else 0) v = if fits ∧ free then x.write (.codeBank b) [] v else x.cfgRej src := by
  have base : F.CODE_A_BASE.get v = v.toNat / 2 ^ 16 % 2 ^ 10 := rfl
  have size : F.CODE_A_SIZE.get v = v.toNat % 2 ^ 6 := by simp [Fld.get, Fld.width, F.CODE_A_SIZE]
  cases b <;> simp [Tile.wrBank, base, size, Tile.allHalted_iff, Reg.codeBank]

/-- Settles O25: each of the two guarded writes is performed or rejected by its guard, and the guard of a bank register is range and
(R55) that it is not the active bank of a tile with a thread that is not halted. -/
theorem codeBanksChangeOnlyWhileHalted : Obligations.CodeBanksChangeOnlyWhileHalted := by
  unfold Obligations.CodeBanksChangeOnlyWhileHalted
  intro s0 src t v reaches s y halted rejected fits
  refine ⟨fun h => ?_, fun h => ?_, fun b => ⟨fun hfits hfree => ?_, fun h => ?_⟩⟩
  · refine completes_tileWrite rfl reaches fun u only tile => ⟨only, ?_⟩
    rw [tile, Tile.wrCodeCtl_halted src v h]
    exact ⟨Tile.setFld_codeCtl_active _ v, Tile.regsBut_setFld _ _ _ _ _⟩
  · refine completes_tileWrite rfl reaches fun u only tile => ⟨only, ?_⟩
    rw [tile, Tile.wrCodeCtl_not_halted src v h]
    exact Tile.rejects_cfgRej _ src
  · refine completes_tileWrite rfl reaches fun u only tile => ⟨only, ?_⟩
    rw [tile, Tile.wrBank_eq, if_pos ⟨hfits, hfree⟩]
    obtain ⟨base, size⟩ := Tile.write_codeBank_flds y b v
    exact ⟨base, size, Tile.regsBut_write _ _ _ _⟩
  · refine completes_tileWrite rfl reaches fun u only tile => ⟨only, ?_⟩
    have guard_fails : ¬(fits ∧ (halted ∨ ¬y.fld .CODE_CTL [] F.CODE_CTL_ACTIVE = if b then 1 else 0)) := by tauto
    rw [tile, Tile.wrBank_eq, if_neg guard_fails]
    exact Tile.rejects_cfgRej _ src

end Sys2Proof.Machine
end

section
/-! SUPPORT. The changes of one fc on a gauge (R86, R87): what the sets of the fc leave, and the two ways a flush can end, with a sum that
fits VALUE and with the saturation. -/
namespace Sys2Proof.Machine

/-! ### The word of a gauge -/

/-- The word of a gauge with a VALUE and an ERR (Table 4-22). -/
def gaugeOf (value err : Nat) : W64 := BitVec.ofNat 64 (err * 2 ^ 32 + value)

theorem get_gaugeValue (v : W64) : F.GAUGE_VALUE.get v = v.toNat % 2 ^ 32 := by simp [Fld.get, Fld.width, F.GAUGE_VALUE]

theorem get_gaugeErr (v : W64) : F.GAUGE_ERR.get v = v.toNat / 2 ^ 32 % 2 := rfl

theorem gaugeOf_flds {value err : Nat} (hv : value < 2 ^ 32) (he : err < 2) :
    F.GAUGE_VALUE.get (gaugeOf value err) = value ∧ F.GAUGE_ERR.get (gaugeOf value err) = err := by
  have fits : (gaugeOf value err).toNat = err * 2 ^ 32 + value := by rw [gaugeOf, BitVec.toNat_ofNat]; omega
  rw [get_gaugeValue, get_gaugeErr, fits]
  omega

theorem Tile.setReg_gaugeOf_flds (x : Tile) (g : Nat) {value err : Nat} (hv : value < 2 ^ 32) (he : err < 2) :
    (x.setReg .GAUGE [g] (gaugeOf value err)).fld .GAUGE [g] F.GAUGE_VALUE = value ∧
    (x.setReg .GAUGE [g] (gaugeOf value err)).fld .GAUGE [g] F.GAUGE_ERR = err := by
  rw [Tile.fld, Tile.fld, Tile.reg_setReg_same]
  exact gaugeOf_flds hv he

theorem Tile.gauge_setReg_other (x : Tile) {g h : Nat} (v : W64) (hne : h ≠ g) : (x.setReg .GAUGE [g] v).gauge h = x.gauge h := by
  have apart : Reg.loc .GAUGE [h] ≠ Reg.loc .GAUGE [g] := by simp [Reg.loc, Reg.info, Reg.sumIdx, hne]
  exact Tile.reg_setReg_other x _ _ _ _ v apart

/-! ### The flag and the count of a saturation -/

/-- What a saturated gauge leaves beside its own word: G_OVF set (R87) and the saturation counted (Table 4-17). -/
def Tile.gaugeOverflow (x : Tile) : Tile := (x.setFld .CORE_FLT [] F.CORE_FLT_G_OVF 1).incSat .CORE_CNT [] F.CORE_CNT_GOVF_CNT 1

theorem Tile.gaugeOverflow_flag (x : Tile) : x.gaugeOverflow.fld .CORE_FLT [] F.CORE_FLT_G_OVF = 1 := by
  have count_elsewhere := Tile.regsBut_setFld (x.setFld .CORE_FLT [] F.CORE_FLT_G_OVF 1) .CORE_CNT [] F.CORE_CNT_GOVF_CNT
  rw [Tile.gaugeOverflow, Tile.incSat, Tile.fld, count_elsewhere _ .CORE_FLT [] (by decide)]
  exact Tile.fld_setFld_same x [] 1 (by decide)

theorem Tile.reg_gauge_gaugeOverflow (x : Tile) (g : Nat) : x.gaugeOverflow.reg .GAUGE [g] = x.reg .GAUGE [g] := by
  have flt : Reg.loc .GAUGE [g] ≠ Reg.loc .CORE_FLT [] := Reg.loc_ne_of_lt_base (by decide) [g]
  have cnt : Reg.loc .GAUGE [g] ≠ Reg.loc .CORE_CNT [] := Reg.loc_ne_of_lt_base (by decide) [g]
  calc x.gaugeOverflow.reg .GAUGE [g]
      = (x.setFld .CORE_FLT [] F.CORE_FLT_G_OVF 1).reg .GAUGE [g] := Tile.regsBut_setFld _ _ _ _ _ _ _ (by simpa using cnt)
    _ = x.reg .GAUGE [g] := Tile.regsBut_setFld _ _ _ _ _ _ _ (by simpa using flt)

theorem Tile.gauge_gaugeOverflow (x : Tile) (g : Nat) : x.gaugeOverflow.gauge g = x.gauge g := x.reg_gauge_gaugeOverflow g

theorem Tile.fld_gauge_gaugeOverflow (x : Tile) (g : Nat) (f : Fld) : x.gaugeOverflow.fld .GAUGE [g] f = x.fld .GAUGE [g] f :=
  congrArg f.get (x.reg_gauge_gaugeOverflow g)

/-! ### The two ends of a flush -/

/-- VALUE and ERR of a gauge before the adds of the fc: a GSET comes after a CSR write and overrides it (R86). -/
def Tile.gaugeBase (x : Tile) (cs : List GChange) (g : Nat) : Nat × Nat :=
  match lastSet g cs, lastCsr g cs with
  | some v, _ => (v.toNat, 0)
  | none, some v => (F.GAUGE_VALUE.get v, F.GAUGE_ERR.get v)
  | none, none => (x.fld .GAUGE [g] F.GAUGE_VALUE, x.fld .GAUGE [g] F.GAUGE_ERR)

theorem Tile.gaugeBase_err_lt (x : Tile) (cs : List GChange) (g : Nat) : (x.gaugeBase cs g).2 < 2 := by
  unfold Tile.gaugeBase
  split
  · exact Nat.two_pos
  · exact Fld.get_lt _ _
  · exact Fld.get_lt _ _

/-- The sum of the adds of the fc and whether one carries an error, landed on VALUE and ERR as its sets left them (R87). -/
def Tile.landGauge (x : Tile) (g : Nat) (base : Nat × Nat) (adds : Nat × Bool) : Tile :=
  let ovf := decide (2 ^ 32 ≤ base.1 + adds.1)
  let y := x.setReg .GAUGE [g] (gaugeOf (if ovf then 2 ^ 32 - 1 else base.1 + adds.1) (if ovf || adds.2 then 1 else base.2))
  if ovf then y.gaugeOverflow else y

theorem Tile.flushGauge_changed {x : Tile} {cs : List GChange} {g : Nat} (changed : cs.any (GChange.on g) = true) :
    x.flushGauge cs g = x.landGauge g (x.gaugeBase cs g) (sumAdds g cs) := if_pos changed

section
variable (x : Tile) (g : Nat) {base : Nat × Nat} {adds : Nat × Bool}

theorem Tile.landGauge_of_fits (fits : base.1 + adds.1 < 2 ^ 32) :
    x.landGauge g base adds = x.setReg .GAUGE [g] (gaugeOf (base.1 + adds.1) (if adds.2 then 1 else base.2)) := by
  have no_ovf : decide (2 ^ 32 ≤ base.1 + adds.1) = false := decide_eq_false fits.not_ge
  rw [Tile.landGauge, no_ovf]
  rfl

theorem Tile.landGauge_of_carries (carries : 2 ^ 32 ≤ base.1 + adds.1) :
    x.landGauge g base adds = (x.setReg .GAUGE [g] (gaugeOf (2 ^ 32 - 1) 1)).gaugeOverflow := by
  have ovf : decide (2 ^ 32 ≤ base.1 + adds.1) = true := decide_eq_true carries
  rw [Tile.landGauge, ovf]
  rfl

theorem Tile.landGauge_flds_of_fits (err_lt : base.2 < 2) (fits : base.1 + adds.1 < 2 ^ 32) :
    (x.landGauge g base adds).fld .GAUGE [g] F.GAUGE_VALUE = base.1 + adds.1 ∧
    (x.landGauge g base adds).fld .GAUGE [g] F.GAUGE_ERR = if adds.2 then 1 else base.2 := by
  rw [Tile.landGauge_of_fits x g fits]
  refine Tile.setReg_gaugeOf_flds x g fits ?_
  split
  · exact Nat.one_lt_two
  · exact err_lt

theorem Tile.landGauge_flds_of_carries (carries : 2 ^ 32 ≤ base.1 + adds.1) :
    (x.landGauge g base adds).fld .GAUGE [g] F.GAUGE_VALUE = 2 ^ 32 - 1 ∧ (x.landGauge g base adds).fld .GAUGE [g] F.GAUGE_ERR = 1 ∧
    (x.landGauge g base adds).fld .CORE_FLT [] F.CORE_FLT_G_OVF = 1 := by
  obtain ⟨value, err⟩ := Tile.setReg_gaugeOf_flds x g (value := 2 ^ 32 - 1) (err := 1) (by decide) Nat.one_lt_two
  rw [Tile.landGauge_of_carries x g carries, Tile.fld_gauge_gaugeOverflow, Tile.fld_gauge_gaugeOverflow]
  exact ⟨value, err, Tile.gaugeOverflow_flag _⟩

theorem Tile.gauge_landGauge_other {h : Nat} (hne : h ≠ g) : (x.landGauge g base adds).gauge h = x.gauge h := by
  rcases Nat.lt_or_ge (base.1 + adds.1) (2 ^ 32) with fits | carries
  · rw [Tile.landGauge_of_fits x g fits, Tile.gauge_setReg_other x _ hne]
  · rw [Tile.landGauge_of_carries x g carries, Tile.gauge_gaugeOverflow, Tile.gauge_setReg_other x _ hne]

end

/-- Settles O14: the base is what the sets of the fc leave (R86), and the sum of the adds on it either fits VALUE or saturates (R87). -/
theorem gaugeChangesOfOneFcLandInOrder : Obligations.GaugeChangesOfOneFcLandInOrder := by
  unfold Obligations.GaugeChangesOfOneFcLandInOrder
  intro x cs g _ changed base sum y
  have base_eq : x.gaugeBase cs g = base := by
    unfold base Tile.gaugeBase
    cases lastSet g cs <;> cases lastCsr g cs <;> simp only [Tile.fld, Tile.gauge, get_gaugeValue, get_gaugeErr]
  have err_lt : base.2 < 2 := base_eq ▸ x.gaugeBase_err_lt cs g
  have landed : y = x.landGauge g base (sumAdds g cs) := base_eq ▸ Tile.flushGauge_changed changed
  rw [landed]
  exact ⟨Tile.landGauge_flds_of_fits x g err_lt, Tile.landGauge_flds_of_carries x g, fun h _ => Tile.gauge_landGauge_other x g⟩

end Sys2Proof.Machine
end
